-- ==== Sys2Proof/Word.lean ====
section
/-! DEFINITION. The two word types of the machine (00_scope.md R5): bytes on an 8-bit data bus, 16-bit addresses. All
arithmetic on them wraps modulo their width. The byte-order helpers are in Decode.lean. -/

namespace Sys2Proof

/-- An 8-bit value: A, X, Y, SP, a byte of memory (R5). -/
abbrev Byte := BitVec 8

/-- A 16-bit value: PC and every CPU address (R5). -/
abbrev Word := BitVec 16

end Sys2Proof
end

