-- ==== Sys2Proof/Config.lean ====
section
/-! DEFINITION. What an implementation fixes (the open parameters of 00_scope.md R7, held in State as plain data and never
written by a step) and the free values: opaque constants with no body, of which nothing can be proved. The two free values that
take a whole state, `Config.ppuByte` and `Config.apuByte`, stand beside State, in Machine/State.lean. -/

namespace Sys2Proof

/-- What an undocumented opcode does (R117, D6). -/
inductive Unofficial where
  /-- Every one of the 105 bytes is a model refusal (the default). -/
  | refuse
  /-- The twelve halting bytes are a stuck state; the other 93 are still refused. -/
  | stuck
  deriving DecidableEq, Repr

/-- The open parameters of 00_scope.md R7 that are values, and `vblank_clear_dot` of D46. `ram_init` and `reset_regs` are
arguments of `State.powerOn`; `PpuPorts`, `ApuPorts` and `Mmc3` are the device blocks (log 4, 6, 7, 8, 9). -/
structure Params where
  /-- `unofficial_opcode_behaviour`. -/
  unofficial : Unofficial
  /-- `jmp_indirect_page_wrap` (R140). -/
  jmpIndirectPageWrap : Bool
  /-- `dmc_stall_cycles` (R293). -/
  dmcStallCycles : BitVec 16
  /-- `oam_dma_enabled` (R295). -/
  oamDmaEnabled : Bool
  /-- `controller2_byte`, one bit (R74). -/
  controller2 : Bool
  /-- `vblank_clear_dot` (R289, D46). -/
  vblankClearDot : Nat
  deriving DecidableEq, Repr

/-- The defaults of R7. R7 and D46 name no default for the last one: 1 is DESIGN CHOICE (log 4). -/
def Params.default : Params where
  unofficial := .refuse
  jmpIndirectPageWrap := true
  dmcStallCycles := 4
  oamDmaEnabled := true
  controller2 := false
  vblankClearDot := 1

/-- The ranges the spec gives the parameters: a DMC stall of 1 to 4 cycles (D17), a reset point at dot 1 to 340 (D46). -/
def Params.Valid (p : Params) : Prop :=
  1 ≤ p.dmcStallCycles.toNat ∧ p.dmcStallCycles.toNat ≤ 4 ∧ 1 ≤ p.vblankClearDot ∧ p.vblankClearDot ≤ 340

/-- How the four logical nametables map to physical pages (R75, R77). -/
inductive Mirroring where
  | horizontal
  | vertical
  | oneScreenLow
  | oneScreenHigh
  deriving DecidableEq, Repr, Inhabited

/-- A call that changes the state of an MMC3 (R99: the write operations of R75 and the scanline hook). -/
inductive Mmc3Call where
  | cpuWrite (a : Word) (v : Byte)
  | ppuWrite (a : BitVec 13) (v : Byte)
  | scanlineClock
  deriving DecidableEq, Repr

/-- The cartridge an MMC3 sits on, all that construction keeps of an image: bank counts, the header's mirroring bit, PRG and
CHR contents. Its answers may depend on nothing else of the image (DESIGN CHOICE, log 9): the battery, trainer and four-screen
flags and header bytes 8 to 15, which D25 does not use. -/
structure Mmc3Image where
  prgBanks : Nat
  chrBanks : Nat
  headerMirroring : Mirroring
  prg : List (Nat × Byte)
  chr : List (Nat × Byte)
  deriving DecidableEq, Repr

/-- FREE VALUE. `Mmc3.cpu_read` (R99, R75) as a function of the image, the calls made so far (newest first), the address
and the open-bus value (log 9). -/
opaque Config.mmc3CpuRead : Mmc3Image → List Mmc3Call → Word → Byte → Byte

/-- FREE VALUE. `Mmc3.ppu_read` (R99, R75; log 9). -/
opaque Config.mmc3PpuRead : Mmc3Image → List Mmc3Call → BitVec 13 → Byte

/-- FREE VALUE. `Mmc3.irq_out` (R294) after at least one call (log 9). -/
opaque Config.mmc3Irq : Mmc3Image → List Mmc3Call → Bool

/-- FREE VALUE. The mirroring an MMC3 selects (R75, R99), at power-on as after any call; the header's mirroring bit is among
what it may depend on (log 9). -/
opaque Config.mmc3Mirroring : Mmc3Image → List Mmc3Call → Mirroring

end Sys2Proof
end

