-- ==== Sys2Proof/Syntax.lean ====
section
/-! DEFINITION. The instructions: one constructor per row of spec/opcode_table.json, 151 in all (30_encoding.md R114, R115).
A constructor carries the row's operand: an immediate byte `v`, a zero-page byte `z`, a 16-bit address or pointer `w` or a
branch offset `d`. The suffix names the mode as the table's "format" does; a mnemonic with one row has no suffix. -/

namespace Sys2Proof

/-- An instruction of the official set: a mnemonic, a mode and its operand (R110 to R115). -/
inductive Instr where
  -- LDA (R150)
  | ldaImm (v : Byte)
  | ldaZp (z : Byte)
  | ldaZpx (z : Byte)
  | ldaAbs (w : Word)
  | ldaAbsx (w : Word)
  | ldaAbsy (w : Word)
  | ldaIndx (z : Byte)
  | ldaIndy (z : Byte)
  -- LDX (R151)
  | ldxImm (v : Byte)
  | ldxZp (z : Byte)
  | ldxZpy (z : Byte)
  | ldxAbs (w : Word)
  | ldxAbsy (w : Word)
  -- LDY (R152)
  | ldyImm (v : Byte)
  | ldyZp (z : Byte)
  | ldyZpx (z : Byte)
  | ldyAbs (w : Word)
  | ldyAbsx (w : Word)
  -- STA (R153)
  | staZp (z : Byte)
  | staZpx (z : Byte)
  | staAbs (w : Word)
  | staAbsx (w : Word)
  | staAbsy (w : Word)
  | staIndx (z : Byte)
  | staIndy (z : Byte)
  -- STX (R154)
  | stxZp (z : Byte)
  | stxZpy (z : Byte)
  | stxAbs (w : Word)
  -- STY (R155)
  | styZp (z : Byte)
  | styZpx (z : Byte)
  | styAbs (w : Word)
  -- TAX (R160)
  | tax
  -- TAY (R161)
  | tay
  -- TSX (R162)
  | tsx
  -- TXA (R163)
  | txa
  -- TXS (R164)
  | txs
  -- TYA (R165)
  | tya
  -- PHA (R166)
  | pha
  -- PHP (R167)
  | php
  -- PLA (R168)
  | pla
  -- PLP (R169)
  | plp
  -- ADC (R181)
  | adcImm (v : Byte)
  | adcZp (z : Byte)
  | adcZpx (z : Byte)
  | adcAbs (w : Word)
  | adcAbsx (w : Word)
  | adcAbsy (w : Word)
  | adcIndx (z : Byte)
  | adcIndy (z : Byte)
  -- SBC (R182)
  | sbcImm (v : Byte)
  | sbcZp (z : Byte)
  | sbcZpx (z : Byte)
  | sbcAbs (w : Word)
  | sbcAbsx (w : Word)
  | sbcAbsy (w : Word)
  | sbcIndx (z : Byte)
  | sbcIndy (z : Byte)
  -- AND (R183)
  | andImm (v : Byte)
  | andZp (z : Byte)
  | andZpx (z : Byte)
  | andAbs (w : Word)
  | andAbsx (w : Word)
  | andAbsy (w : Word)
  | andIndx (z : Byte)
  | andIndy (z : Byte)
  -- ORA (R184)
  | oraImm (v : Byte)
  | oraZp (z : Byte)
  | oraZpx (z : Byte)
  | oraAbs (w : Word)
  | oraAbsx (w : Word)
  | oraAbsy (w : Word)
  | oraIndx (z : Byte)
  | oraIndy (z : Byte)
  -- EOR (R185)
  | eorImm (v : Byte)
  | eorZp (z : Byte)
  | eorZpx (z : Byte)
  | eorAbs (w : Word)
  | eorAbsx (w : Word)
  | eorAbsy (w : Word)
  | eorIndx (z : Byte)
  | eorIndy (z : Byte)
  -- BIT (R186)
  | bitZp (z : Byte)
  | bitAbs (w : Word)
  -- CMP (R187)
  | cmpImm (v : Byte)
  | cmpZp (z : Byte)
  | cmpZpx (z : Byte)
  | cmpAbs (w : Word)
  | cmpAbsx (w : Word)
  | cmpAbsy (w : Word)
  | cmpIndx (z : Byte)
  | cmpIndy (z : Byte)
  -- CPX (R188)
  | cpxImm (v : Byte)
  | cpxZp (z : Byte)
  | cpxAbs (w : Word)
  -- CPY (R189)
  | cpyImm (v : Byte)
  | cpyZp (z : Byte)
  | cpyAbs (w : Word)
  -- INC (R200)
  | incZp (z : Byte)
  | incZpx (z : Byte)
  | incAbs (w : Word)
  | incAbsx (w : Word)
  -- INX (R201)
  | inx
  -- INY (R202)
  | iny
  -- DEC (R203)
  | decZp (z : Byte)
  | decZpx (z : Byte)
  | decAbs (w : Word)
  | decAbsx (w : Word)
  -- DEX (R204)
  | dex
  -- DEY (R205)
  | dey
  -- ASL (R206)
  | aslAcc
  | aslZp (z : Byte)
  | aslZpx (z : Byte)
  | aslAbs (w : Word)
  | aslAbsx (w : Word)
  -- LSR (R207)
  | lsrAcc
  | lsrZp (z : Byte)
  | lsrZpx (z : Byte)
  | lsrAbs (w : Word)
  | lsrAbsx (w : Word)
  -- ROL (R208)
  | rolAcc
  | rolZp (z : Byte)
  | rolZpx (z : Byte)
  | rolAbs (w : Word)
  | rolAbsx (w : Word)
  -- ROR (R209)
  | rorAcc
  | rorZp (z : Byte)
  | rorZpx (z : Byte)
  | rorAbs (w : Word)
  | rorAbsx (w : Word)
  -- BCC (R221)
  | bcc (d : Byte)
  -- BCS (R222)
  | bcs (d : Byte)
  -- BEQ (R223)
  | beq (d : Byte)
  -- BMI (R224)
  | bmi (d : Byte)
  -- BNE (R225)
  | bne (d : Byte)
  -- BPL (R226)
  | bpl (d : Byte)
  -- BVC (R227)
  | bvc (d : Byte)
  -- BVS (R228)
  | bvs (d : Byte)
  -- JMP (R229)
  | jmpAbs (w : Word)
  | jmpInd (w : Word)
  -- JSR (R230)
  | jsr (w : Word)
  -- RTS (R231)
  | rts
  -- CLC (R240)
  | clc
  -- CLD (R241)
  | cld
  -- CLI (R242)
  | cli
  -- CLV (R243)
  | clv
  -- SEC (R244)
  | sec
  -- SED (R245)
  | sed
  -- SEI (R246)
  | sei
  -- BRK (R247)
  | brk
  -- RTI (R248)
  | rti
  -- NOP (R249)
  | nop
  deriving DecidableEq, Repr

end Sys2Proof
end

