-- ==== Sys2Proof/WellFormed.lean ====
section
/-! DEFINITION. Well-formed instructions. The encoding has "no reserved fields inside a defined instruction, no custom opcode
space and no privileged encodings" (30_encoding.md R118) and no access has an alignment requirement (20_memory.md R51), so
every term of Instr is well-formed: a row's mode is fixed by its constructor and every operand value is legal. What can be
ill-formed is a sequence of bytes, which `encodingLength` and `WellFormedBytes` check before any decoding. -/

namespace Sys2Proof

/-- Every term of Instr is a well-formed instruction (R118; DEDUCED, log 34). -/
def Instr.WellFormed (_ : Instr) : Bool := true

/-- The length in bytes of the instruction an opcode byte begins, from the columns of the opcode map (R115, R116): `none`
for an undocumented byte (R117). Written from the structure R113 describes, apart from the decoder's table. -/
def encodingLength (op : Byte) : Option Nat :=
  let lo := op.toNat % 16
  let hi := op.toNat / 16
  let odd := hi % 2 == 1
  if lo = 0x0 then
    if hi = 0x2 then some 3                      -- JSR
    else if hi = 0x0 ∨ hi = 0x4 ∨ hi = 0x6 then some 1  -- BRK, RTI, RTS
    else if hi = 0x8 then none
    else some 2                                  -- branches; LDY, CPY, CPX immediate
  else if lo = 0x1 then some 2
  else if lo = 0x2 then if hi = 0xA then some 2 else none
  else if lo = 0x4 then
    if hi = 0x2 ∨ hi = 0x8 ∨ hi = 0x9 ∨ hi = 0xA ∨ hi = 0xB ∨ hi = 0xC ∨ hi = 0xE then some 2 else none
  else if lo = 0x5 ∨ lo = 0x6 then some 2
  else if lo = 0x8 then some 1
  else if lo = 0x9 then if hi = 0x8 then none else if odd then some 3 else some 2
  else if lo = 0xA then
    if odd = false ∨ hi = 0x9 ∨ hi = 0xB then some 1 else none
  else if lo = 0xC then
    if hi = 0x2 ∨ hi = 0x4 ∨ hi = 0x6 ∨ hi = 0x8 ∨ hi = 0xA ∨ hi = 0xB ∨ hi = 0xC ∨ hi = 0xE then some 3 else none
  else if lo = 0xD then some 3
  else if lo = 0xE then if hi = 0x9 then none else some 3
  else none

/-- A byte sequence is the encoding of one instruction when its opcode is documented and it has exactly the length the
opcode fixes (R110, R116). -/
def WellFormedBytes : List Byte → Bool
  | [] => false
  | op :: rest => encodingLength op == some (rest.length + 1)

end Sys2Proof
end

