-- ==== Sys2Proof/Decode.lean ====
section
/-! DEFINITION. Decoding (30_encoding.md R110 to R117, R121): byte order, the opcode table, the decoder, total on any bytes
and refusing by name, and after it the encoder. The table is a list of rows that reads as the opcode map of R115. -/

namespace Sys2Proof

/-! ### Byte order (20_memory.md R50): the low byte of a 16-bit quantity is at the lower address -/

/-- `hi : lo` of R8. -/
def mkWord (hi lo : Byte) : Word := hi ++ lo

/-- `w[7:0]`. -/
def loByte (w : Word) : Byte := w.extractLsb' 0 8

/-- `w[15:8]`. -/
def hiByte (w : Word) : Byte := w.extractLsb' 8 8

/-! ### Mnemonics and operands: the pair (mnemonic, mode) of R114 -/

/-- The 56 mnemonics (R114). -/
inductive Mnemonic where
  | lda | ldx | ldy | sta | stx | sty | tax | tay
  | tsx | txa | txs | tya | pha | php | pla | plp
  | adc | sbc | and | ora | eor | bit | cmp | cpx
  | cpy | inc | inx | iny | dec | dex | dey | asl
  | lsr | rol | ror | bcc | bcs | beq | bmi | bne
  | bpl | bvc | bvs | jmp | jsr | rts | clc | cld
  | cli | clv | sec | sed | sei | brk | rti | nop
  deriving DecidableEq, Repr

/-- A mode with an effective address in the read, write and read-modify-write classes (40_addressing.md R134 to R139, R141,
R142). -/
inductive Mem where
  /-- zero page (R134) -/
  | zp (z : Byte)
  /-- zero page,X (R135) -/
  | zpx (z : Byte)
  /-- zero page,Y (R136) -/
  | zpy (z : Byte)
  /-- absolute (R137) -/
  | abs (w : Word)
  /-- absolute,X (R138) -/
  | absx (w : Word)
  /-- absolute,Y (R139) -/
  | absy (w : Word)
  /-- (zero page,X) (R141) -/
  | indx (z : Byte)
  /-- (zero page),Y (R142) -/
  | indy (z : Byte)
  deriving DecidableEq, Repr

/-- The operand of an instruction: its mode with the operand bytes (R111, R130). -/
inductive Operand where
  /-- implied (R131) -/
  | imp
  /-- accumulator (R132) -/
  | acc
  /-- immediate (R133) -/
  | imm (v : Byte)
  /-- a mode with an effective address -/
  | mem (m : Mem)
  /-- indirect, JMP only (R140) -/
  | ind (w : Word)
  /-- relative (R143) -/
  | rel (d : Byte)
  deriving DecidableEq, Repr

/-- The mnemonic of an instruction (R114). -/
def Instr.mnemonic : Instr → Mnemonic
  | .ldaImm _ | .ldaZp _ | .ldaZpx _ | .ldaAbs _ | .ldaAbsx _ | .ldaAbsy _ | .ldaIndx _ | .ldaIndy _ => .lda
  | .ldxImm _ | .ldxZp _ | .ldxZpy _ | .ldxAbs _ | .ldxAbsy _ => .ldx
  | .ldyImm _ | .ldyZp _ | .ldyZpx _ | .ldyAbs _ | .ldyAbsx _ => .ldy
  | .staZp _ | .staZpx _ | .staAbs _ | .staAbsx _ | .staAbsy _ | .staIndx _ | .staIndy _ => .sta
  | .stxZp _ | .stxZpy _ | .stxAbs _ => .stx
  | .styZp _ | .styZpx _ | .styAbs _ => .sty
  | .tax => .tax
  | .tay => .tay
  | .tsx => .tsx
  | .txa => .txa
  | .txs => .txs
  | .tya => .tya
  | .pha => .pha
  | .php => .php
  | .pla => .pla
  | .plp => .plp
  | .adcImm _ | .adcZp _ | .adcZpx _ | .adcAbs _ | .adcAbsx _ | .adcAbsy _ | .adcIndx _ | .adcIndy _ => .adc
  | .sbcImm _ | .sbcZp _ | .sbcZpx _ | .sbcAbs _ | .sbcAbsx _ | .sbcAbsy _ | .sbcIndx _ | .sbcIndy _ => .sbc
  | .andImm _ | .andZp _ | .andZpx _ | .andAbs _ | .andAbsx _ | .andAbsy _ | .andIndx _ | .andIndy _ => .and
  | .oraImm _ | .oraZp _ | .oraZpx _ | .oraAbs _ | .oraAbsx _ | .oraAbsy _ | .oraIndx _ | .oraIndy _ => .ora
  | .eorImm _ | .eorZp _ | .eorZpx _ | .eorAbs _ | .eorAbsx _ | .eorAbsy _ | .eorIndx _ | .eorIndy _ => .eor
  | .bitZp _ | .bitAbs _ => .bit
  | .cmpImm _ | .cmpZp _ | .cmpZpx _ | .cmpAbs _ | .cmpAbsx _ | .cmpAbsy _ | .cmpIndx _ | .cmpIndy _ => .cmp
  | .cpxImm _ | .cpxZp _ | .cpxAbs _ => .cpx
  | .cpyImm _ | .cpyZp _ | .cpyAbs _ => .cpy
  | .incZp _ | .incZpx _ | .incAbs _ | .incAbsx _ => .inc
  | .inx => .inx
  | .iny => .iny
  | .decZp _ | .decZpx _ | .decAbs _ | .decAbsx _ => .dec
  | .dex => .dex
  | .dey => .dey
  | .aslAcc | .aslZp _ | .aslZpx _ | .aslAbs _ | .aslAbsx _ => .asl
  | .lsrAcc | .lsrZp _ | .lsrZpx _ | .lsrAbs _ | .lsrAbsx _ => .lsr
  | .rolAcc | .rolZp _ | .rolZpx _ | .rolAbs _ | .rolAbsx _ => .rol
  | .rorAcc | .rorZp _ | .rorZpx _ | .rorAbs _ | .rorAbsx _ => .ror
  | .bcc _ => .bcc
  | .bcs _ => .bcs
  | .beq _ => .beq
  | .bmi _ => .bmi
  | .bne _ => .bne
  | .bpl _ => .bpl
  | .bvc _ => .bvc
  | .bvs _ => .bvs
  | .jmpAbs _ | .jmpInd _ => .jmp
  | .jsr _ => .jsr
  | .rts => .rts
  | .clc => .clc
  | .cld => .cld
  | .cli => .cli
  | .clv => .clv
  | .sec => .sec
  | .sed => .sed
  | .sei => .sei
  | .brk => .brk
  | .rti => .rti
  | .nop => .nop

/-- The operand of an instruction: its mode and operand bytes (R114). -/
def Instr.operand : Instr → Operand
  | .tax | .tay | .tsx | .txa | .txs | .tya | .pha | .php => .imp
  | .pla | .plp | .inx | .iny | .dex | .dey | .rts | .clc => .imp
  | .cld | .cli | .clv | .sec | .sed | .sei | .brk | .rti => .imp
  | .nop => .imp
  | .aslAcc | .lsrAcc | .rolAcc | .rorAcc => .acc
  | .ldaImm v | .ldxImm v | .ldyImm v | .adcImm v | .sbcImm v | .andImm v | .oraImm v | .eorImm v => .imm v
  | .cmpImm v | .cpxImm v | .cpyImm v => .imm v
  | .ldaZp z | .ldxZp z | .ldyZp z | .staZp z | .stxZp z | .styZp z | .adcZp z | .sbcZp z => .mem (.zp z)
  | .andZp z | .oraZp z | .eorZp z | .bitZp z | .cmpZp z | .cpxZp z | .cpyZp z | .incZp z => .mem (.zp z)
  | .decZp z | .aslZp z | .lsrZp z | .rolZp z | .rorZp z => .mem (.zp z)
  | .ldaZpx z | .ldyZpx z | .staZpx z | .styZpx z | .adcZpx z | .sbcZpx z | .andZpx z | .oraZpx z => .mem (.zpx z)
  | .eorZpx z | .cmpZpx z | .incZpx z | .decZpx z | .aslZpx z | .lsrZpx z | .rolZpx z | .rorZpx z => .mem (.zpx z)
  | .ldxZpy z | .stxZpy z => .mem (.zpy z)
  | .ldaAbs w | .ldxAbs w | .ldyAbs w | .staAbs w | .stxAbs w | .styAbs w | .adcAbs w | .sbcAbs w => .mem (.abs w)
  | .andAbs w | .oraAbs w | .eorAbs w | .bitAbs w | .cmpAbs w | .cpxAbs w | .cpyAbs w | .incAbs w => .mem (.abs w)
  | .decAbs w | .aslAbs w | .lsrAbs w | .rolAbs w | .rorAbs w | .jmpAbs w | .jsr w => .mem (.abs w)
  | .ldaAbsx w | .ldyAbsx w | .staAbsx w | .adcAbsx w | .sbcAbsx w | .andAbsx w | .oraAbsx w | .eorAbsx w => .mem (.absx w)
  | .cmpAbsx w | .incAbsx w | .decAbsx w | .aslAbsx w | .lsrAbsx w | .rolAbsx w | .rorAbsx w => .mem (.absx w)
  | .ldaAbsy w | .ldxAbsy w | .staAbsy w | .adcAbsy w | .sbcAbsy w | .andAbsy w | .oraAbsy w | .eorAbsy w => .mem (.absy w)
  | .cmpAbsy w => .mem (.absy w)
  | .jmpInd w => .ind w
  | .ldaIndx z | .staIndx z | .adcIndx z | .sbcIndx z | .andIndx z | .oraIndx z | .eorIndx z | .cmpIndx z => .mem (.indx z)
  | .ldaIndy z | .staIndy z | .adcIndy z | .sbcIndy z | .andIndy z | .oraIndy z | .eorIndy z | .cmpIndy z => .mem (.indy z)
  | .bcc d | .bcs d | .beq d | .bmi d | .bne d | .bpl d | .bvc d | .bvs d => .rel d

/-- The length in bytes an operand's mode gives its instruction (R111, R116). -/
def Operand.length : Operand → Nat
  | .imp | .acc => 1
  | .imm _ | .rel _ | .mem (.zp _) | .mem (.zpx _) | .mem (.zpy _) | .mem (.indx _) | .mem (.indy _) => 2
  | .ind _ | .mem (.abs _) | .mem (.absx _) | .mem (.absy _) => 3

/-- The `cycles` column of spec/opcode_table.json (70_reset_and_hazards.md R336), before any penalty. -/
def Instr.baseCycles : Instr → Nat
  | .ldaImm _ | .ldxImm _ | .ldyImm _ | .tax | .tay | .tsx | .txa | .txs => 2
  | .tya | .adcImm _ | .sbcImm _ | .andImm _ | .oraImm _ | .eorImm _ | .cmpImm _ | .cpxImm _ => 2
  | .cpyImm _ | .inx | .iny | .dex | .dey | .aslAcc | .lsrAcc | .rolAcc => 2
  | .rorAcc | .bcc _ | .bcs _ | .beq _ | .bmi _ | .bne _ | .bpl _ | .bvc _ => 2
  | .bvs _ | .clc | .cld | .cli | .clv | .sec | .sed | .sei => 2
  | .nop => 2
  | .ldaZp _ | .ldxZp _ | .ldyZp _ | .staZp _ | .stxZp _ | .styZp _ | .pha | .php => 3
  | .adcZp _ | .sbcZp _ | .andZp _ | .oraZp _ | .eorZp _ | .bitZp _ | .cmpZp _ | .cpxZp _ => 3
  | .cpyZp _ | .jmpAbs _ => 3
  | .ldaZpx _ | .ldaAbs _ | .ldaAbsx _ | .ldaAbsy _ | .ldxZpy _ | .ldxAbs _ | .ldxAbsy _ | .ldyZpx _ => 4
  | .ldyAbs _ | .ldyAbsx _ | .staZpx _ | .staAbs _ | .stxZpy _ | .stxAbs _ | .styZpx _ | .styAbs _ => 4
  | .pla | .plp | .adcZpx _ | .adcAbs _ | .adcAbsx _ | .adcAbsy _ | .sbcZpx _ | .sbcAbs _ => 4
  | .sbcAbsx _ | .sbcAbsy _ | .andZpx _ | .andAbs _ | .andAbsx _ | .andAbsy _ | .oraZpx _ | .oraAbs _ => 4
  | .oraAbsx _ | .oraAbsy _ | .eorZpx _ | .eorAbs _ | .eorAbsx _ | .eorAbsy _ | .bitAbs _ | .cmpZpx _ => 4
  | .cmpAbs _ | .cmpAbsx _ | .cmpAbsy _ | .cpxAbs _ | .cpyAbs _ => 4
  | .ldaIndy _ | .staAbsx _ | .staAbsy _ | .adcIndy _ | .sbcIndy _ | .andIndy _ | .oraIndy _ | .eorIndy _ => 5
  | .cmpIndy _ | .incZp _ | .decZp _ | .aslZp _ | .lsrZp _ | .rolZp _ | .rorZp _ | .jmpInd _ => 5
  | .ldaIndx _ | .staIndx _ | .staIndy _ | .adcIndx _ | .sbcIndx _ | .andIndx _ | .oraIndx _ | .eorIndx _ => 6
  | .cmpIndx _ | .incZpx _ | .incAbs _ | .decZpx _ | .decAbs _ | .aslZpx _ | .aslAbs _ | .lsrZpx _ => 6
  | .lsrAbs _ | .rolZpx _ | .rolAbs _ | .rorZpx _ | .rorAbs _ | .jsr _ | .rts | .rti => 6
  | .incAbsx _ | .decAbsx _ | .aslAbsx _ | .lsrAbsx _ | .rolAbsx _ | .rorAbsx _ | .brk => 7

/-! ### The opcode table (R113 to R116) -/

/-- What follows an opcode byte: nothing, one operand byte or a 16-bit operand, low byte first (R111, R112). -/
inductive Form where
  | one (i : Instr)
  | byte (f : Byte → Instr)
  | word (f : Word → Instr)

/-- Row 0x of the opcode map (R115). -/
def opcodes0x : List (Byte × Form) :=
  [(0x00, .one .brk), (0x01, .byte .oraIndx), (0x05, .byte .oraZp), (0x06, .byte .aslZp),
    (0x08, .one .php), (0x09, .byte .oraImm), (0x0A, .one .aslAcc), (0x0D, .word .oraAbs),
    (0x0E, .word .aslAbs)]

/-- Row 1x of the opcode map (R115). -/
def opcodes1x : List (Byte × Form) :=
  [(0x10, .byte .bpl), (0x11, .byte .oraIndy), (0x15, .byte .oraZpx), (0x16, .byte .aslZpx),
    (0x18, .one .clc), (0x19, .word .oraAbsy), (0x1D, .word .oraAbsx), (0x1E, .word .aslAbsx)]

/-- Row 2x of the opcode map (R115). -/
def opcodes2x : List (Byte × Form) :=
  [(0x20, .word .jsr), (0x21, .byte .andIndx), (0x24, .byte .bitZp), (0x25, .byte .andZp),
    (0x26, .byte .rolZp), (0x28, .one .plp), (0x29, .byte .andImm), (0x2A, .one .rolAcc),
    (0x2C, .word .bitAbs), (0x2D, .word .andAbs), (0x2E, .word .rolAbs)]

/-- Row 3x of the opcode map (R115). -/
def opcodes3x : List (Byte × Form) :=
  [(0x30, .byte .bmi), (0x31, .byte .andIndy), (0x35, .byte .andZpx), (0x36, .byte .rolZpx),
    (0x38, .one .sec), (0x39, .word .andAbsy), (0x3D, .word .andAbsx), (0x3E, .word .rolAbsx)]

/-- Row 4x of the opcode map (R115). -/
def opcodes4x : List (Byte × Form) :=
  [(0x40, .one .rti), (0x41, .byte .eorIndx), (0x45, .byte .eorZp), (0x46, .byte .lsrZp),
    (0x48, .one .pha), (0x49, .byte .eorImm), (0x4A, .one .lsrAcc), (0x4C, .word .jmpAbs),
    (0x4D, .word .eorAbs), (0x4E, .word .lsrAbs)]

/-- Row 5x of the opcode map (R115). -/
def opcodes5x : List (Byte × Form) :=
  [(0x50, .byte .bvc), (0x51, .byte .eorIndy), (0x55, .byte .eorZpx), (0x56, .byte .lsrZpx),
    (0x58, .one .cli), (0x59, .word .eorAbsy), (0x5D, .word .eorAbsx), (0x5E, .word .lsrAbsx)]

/-- Row 6x of the opcode map (R115). -/
def opcodes6x : List (Byte × Form) :=
  [(0x60, .one .rts), (0x61, .byte .adcIndx), (0x65, .byte .adcZp), (0x66, .byte .rorZp),
    (0x68, .one .pla), (0x69, .byte .adcImm), (0x6A, .one .rorAcc), (0x6C, .word .jmpInd),
    (0x6D, .word .adcAbs), (0x6E, .word .rorAbs)]

/-- Row 7x of the opcode map (R115). -/
def opcodes7x : List (Byte × Form) :=
  [(0x70, .byte .bvs), (0x71, .byte .adcIndy), (0x75, .byte .adcZpx), (0x76, .byte .rorZpx),
    (0x78, .one .sei), (0x79, .word .adcAbsy), (0x7D, .word .adcAbsx), (0x7E, .word .rorAbsx)]

/-- Row 8x of the opcode map (R115). -/
def opcodes8x : List (Byte × Form) :=
  [(0x81, .byte .staIndx), (0x84, .byte .styZp), (0x85, .byte .staZp), (0x86, .byte .stxZp),
    (0x88, .one .dey), (0x8A, .one .txa), (0x8C, .word .styAbs), (0x8D, .word .staAbs),
    (0x8E, .word .stxAbs)]

/-- Row 9x of the opcode map (R115). -/
def opcodes9x : List (Byte × Form) :=
  [(0x90, .byte .bcc), (0x91, .byte .staIndy), (0x94, .byte .styZpx), (0x95, .byte .staZpx),
    (0x96, .byte .stxZpy), (0x98, .one .tya), (0x99, .word .staAbsy), (0x9A, .one .txs),
    (0x9D, .word .staAbsx)]

/-- Row Ax of the opcode map (R115). -/
def opcodesAx : List (Byte × Form) :=
  [(0xA0, .byte .ldyImm), (0xA1, .byte .ldaIndx), (0xA2, .byte .ldxImm), (0xA4, .byte .ldyZp),
    (0xA5, .byte .ldaZp), (0xA6, .byte .ldxZp), (0xA8, .one .tay), (0xA9, .byte .ldaImm),
    (0xAA, .one .tax), (0xAC, .word .ldyAbs), (0xAD, .word .ldaAbs), (0xAE, .word .ldxAbs)]

/-- Row Bx of the opcode map (R115). -/
def opcodesBx : List (Byte × Form) :=
  [(0xB0, .byte .bcs), (0xB1, .byte .ldaIndy), (0xB4, .byte .ldyZpx), (0xB5, .byte .ldaZpx),
    (0xB6, .byte .ldxZpy), (0xB8, .one .clv), (0xB9, .word .ldaAbsy), (0xBA, .one .tsx),
    (0xBC, .word .ldyAbsx), (0xBD, .word .ldaAbsx), (0xBE, .word .ldxAbsy)]

/-- Row Cx of the opcode map (R115). -/
def opcodesCx : List (Byte × Form) :=
  [(0xC0, .byte .cpyImm), (0xC1, .byte .cmpIndx), (0xC4, .byte .cpyZp), (0xC5, .byte .cmpZp),
    (0xC6, .byte .decZp), (0xC8, .one .iny), (0xC9, .byte .cmpImm), (0xCA, .one .dex),
    (0xCC, .word .cpyAbs), (0xCD, .word .cmpAbs), (0xCE, .word .decAbs)]

/-- Row Dx of the opcode map (R115). -/
def opcodesDx : List (Byte × Form) :=
  [(0xD0, .byte .bne), (0xD1, .byte .cmpIndy), (0xD5, .byte .cmpZpx), (0xD6, .byte .decZpx),
    (0xD8, .one .cld), (0xD9, .word .cmpAbsy), (0xDD, .word .cmpAbsx), (0xDE, .word .decAbsx)]

/-- Row Ex of the opcode map (R115). -/
def opcodesEx : List (Byte × Form) :=
  [(0xE0, .byte .cpxImm), (0xE1, .byte .sbcIndx), (0xE4, .byte .cpxZp), (0xE5, .byte .sbcZp),
    (0xE6, .byte .incZp), (0xE8, .one .inx), (0xE9, .byte .sbcImm), (0xEA, .one .nop),
    (0xEC, .word .cpxAbs), (0xED, .word .sbcAbs), (0xEE, .word .incAbs)]

/-- Row Fx of the opcode map (R115). -/
def opcodesFx : List (Byte × Form) :=
  [(0xF0, .byte .beq), (0xF1, .byte .sbcIndy), (0xF5, .byte .sbcZpx), (0xF6, .byte .incZpx),
    (0xF8, .one .sed), (0xF9, .word .sbcAbsy), (0xFD, .word .sbcAbsx), (0xFE, .word .incAbsx)]

/-- The official opcode map (R115): 151 rows; every byte with no row is undocumented (R117). -/
def opcodeTable : List (Byte × Form) :=
  opcodes0x ++ opcodes1x ++ opcodes2x ++ opcodes3x ++ opcodes4x ++ opcodes5x ++ opcodes6x ++ opcodes7x ++
    opcodes8x ++ opcodes9x ++ opcodesAx ++ opcodesBx ++ opcodesCx ++ opcodesDx ++ opcodesEx ++ opcodesFx

/-- The form of the row of a table whose opcode is `op` (R114). -/
def lookupOpcode (op : Byte) : List (Byte × Form) → Option Form
  | [] => none
  | (b, f) :: rows => if b = op then some f else lookupOpcode op rows

/-- `decode(op)` of R114: what the opcode byte begins, `none` for `Undefined(op)`. -/
def decodeOpcode (op : Byte) : Option Form := lookupOpcode op opcodeTable

/-- The twelve undocumented bytes that halt the real CPU (R117). -/
def haltingOpcodes : List Byte :=
  [0x02, 0x12, 0x22, 0x32, 0x42, 0x52, 0x62, 0x72, 0x92, 0xB2, 0xD2, 0xF2]

/-! ### The decoder -/

/-- Why bytes decode to no instruction. -/
inductive DecodeError where
  /-- There is no byte. -/
  | empty
  /-- The first byte is one of the 105 undocumented opcodes (R117). -/
  | undocumentedOpcode (op : Byte)
  /-- The operand bytes the opcode needs are not all there (R116). -/
  | truncated (op : Byte)
  deriving DecidableEq, Repr

/-- Decodes the instruction at the head of a byte sequence and returns the bytes after it (R110 to R116). -/
def decode : List Byte → Except DecodeError (Instr × List Byte)
  | [] => .error .empty
  | op :: rest =>
    match decodeOpcode op with
    | none => .error (.undocumentedOpcode op)
    | some (.one i) => .ok (i, rest)
    | some (.byte f) =>
      match rest with
      | b :: rest => .ok (f b, rest)
      | _ => .error (.truncated op)
    | some (.word f) =>
      match rest with
      | lo :: hi :: rest => .ok (f (mkWord hi lo), rest)
      | _ => .error (.truncated op)

/-- The three bytes, first at the lowest address, of an instruction whose bits are `w`: bit 0 of `w` is the least significant
bit of the first byte, and every bit at or above `nbits` is 0. -/
def tableBytes (nbits w : Nat) : List Byte :=
  let v := w % 2 ^ nbits
  [BitVec.ofNat 8 v, BitVec.ofNat 8 (v / 256), BitVec.ofNat 8 (v / 65536)]

/-- The instruction the decoder reads from an instruction whose bits are `w`, numbered as spec/opcode_table.json numbers
them. -/
def decodeTableWord (nbits w : Nat) : Option Instr :=
  match decode (tableBytes nbits w) with
  | .ok (i, _) => some i
  | .error _ => none

/-! ### The encoder -/

/-- The opcode byte of an instruction (R115). -/
def Instr.opcode : Instr → Byte
  | .ldaImm _ => 0xA9
  | .ldaZp _ => 0xA5
  | .ldaZpx _ => 0xB5
  | .ldaAbs _ => 0xAD
  | .ldaAbsx _ => 0xBD
  | .ldaAbsy _ => 0xB9
  | .ldaIndx _ => 0xA1
  | .ldaIndy _ => 0xB1
  | .ldxImm _ => 0xA2
  | .ldxZp _ => 0xA6
  | .ldxZpy _ => 0xB6
  | .ldxAbs _ => 0xAE
  | .ldxAbsy _ => 0xBE
  | .ldyImm _ => 0xA0
  | .ldyZp _ => 0xA4
  | .ldyZpx _ => 0xB4
  | .ldyAbs _ => 0xAC
  | .ldyAbsx _ => 0xBC
  | .staZp _ => 0x85
  | .staZpx _ => 0x95
  | .staAbs _ => 0x8D
  | .staAbsx _ => 0x9D
  | .staAbsy _ => 0x99
  | .staIndx _ => 0x81
  | .staIndy _ => 0x91
  | .stxZp _ => 0x86
  | .stxZpy _ => 0x96
  | .stxAbs _ => 0x8E
  | .styZp _ => 0x84
  | .styZpx _ => 0x94
  | .styAbs _ => 0x8C
  | .tax => 0xAA
  | .tay => 0xA8
  | .tsx => 0xBA
  | .txa => 0x8A
  | .txs => 0x9A
  | .tya => 0x98
  | .pha => 0x48
  | .php => 0x08
  | .pla => 0x68
  | .plp => 0x28
  | .adcImm _ => 0x69
  | .adcZp _ => 0x65
  | .adcZpx _ => 0x75
  | .adcAbs _ => 0x6D
  | .adcAbsx _ => 0x7D
  | .adcAbsy _ => 0x79
  | .adcIndx _ => 0x61
  | .adcIndy _ => 0x71
  | .sbcImm _ => 0xE9
  | .sbcZp _ => 0xE5
  | .sbcZpx _ => 0xF5
  | .sbcAbs _ => 0xED
  | .sbcAbsx _ => 0xFD
  | .sbcAbsy _ => 0xF9
  | .sbcIndx _ => 0xE1
  | .sbcIndy _ => 0xF1
  | .andImm _ => 0x29
  | .andZp _ => 0x25
  | .andZpx _ => 0x35
  | .andAbs _ => 0x2D
  | .andAbsx _ => 0x3D
  | .andAbsy _ => 0x39
  | .andIndx _ => 0x21
  | .andIndy _ => 0x31
  | .oraImm _ => 0x09
  | .oraZp _ => 0x05
  | .oraZpx _ => 0x15
  | .oraAbs _ => 0x0D
  | .oraAbsx _ => 0x1D
  | .oraAbsy _ => 0x19
  | .oraIndx _ => 0x01
  | .oraIndy _ => 0x11
  | .eorImm _ => 0x49
  | .eorZp _ => 0x45
  | .eorZpx _ => 0x55
  | .eorAbs _ => 0x4D
  | .eorAbsx _ => 0x5D
  | .eorAbsy _ => 0x59
  | .eorIndx _ => 0x41
  | .eorIndy _ => 0x51
  | .bitZp _ => 0x24
  | .bitAbs _ => 0x2C
  | .cmpImm _ => 0xC9
  | .cmpZp _ => 0xC5
  | .cmpZpx _ => 0xD5
  | .cmpAbs _ => 0xCD
  | .cmpAbsx _ => 0xDD
  | .cmpAbsy _ => 0xD9
  | .cmpIndx _ => 0xC1
  | .cmpIndy _ => 0xD1
  | .cpxImm _ => 0xE0
  | .cpxZp _ => 0xE4
  | .cpxAbs _ => 0xEC
  | .cpyImm _ => 0xC0
  | .cpyZp _ => 0xC4
  | .cpyAbs _ => 0xCC
  | .incZp _ => 0xE6
  | .incZpx _ => 0xF6
  | .incAbs _ => 0xEE
  | .incAbsx _ => 0xFE
  | .inx => 0xE8
  | .iny => 0xC8
  | .decZp _ => 0xC6
  | .decZpx _ => 0xD6
  | .decAbs _ => 0xCE
  | .decAbsx _ => 0xDE
  | .dex => 0xCA
  | .dey => 0x88
  | .aslAcc => 0x0A
  | .aslZp _ => 0x06
  | .aslZpx _ => 0x16
  | .aslAbs _ => 0x0E
  | .aslAbsx _ => 0x1E
  | .lsrAcc => 0x4A
  | .lsrZp _ => 0x46
  | .lsrZpx _ => 0x56
  | .lsrAbs _ => 0x4E
  | .lsrAbsx _ => 0x5E
  | .rolAcc => 0x2A
  | .rolZp _ => 0x26
  | .rolZpx _ => 0x36
  | .rolAbs _ => 0x2E
  | .rolAbsx _ => 0x3E
  | .rorAcc => 0x6A
  | .rorZp _ => 0x66
  | .rorZpx _ => 0x76
  | .rorAbs _ => 0x6E
  | .rorAbsx _ => 0x7E
  | .bcc _ => 0x90
  | .bcs _ => 0xB0
  | .beq _ => 0xF0
  | .bmi _ => 0x30
  | .bne _ => 0xD0
  | .bpl _ => 0x10
  | .bvc _ => 0x50
  | .bvs _ => 0x70
  | .jmpAbs _ => 0x4C
  | .jmpInd _ => 0x6C
  | .jsr _ => 0x20
  | .rts => 0x60
  | .clc => 0x18
  | .cld => 0xD8
  | .cli => 0x58
  | .clv => 0xB8
  | .sec => 0x38
  | .sed => 0xF8
  | .sei => 0x78
  | .brk => 0x00
  | .rti => 0x40
  | .nop => 0xEA

/-- The operand bytes of an operand, low byte first (R111, R112). -/
def Operand.bytes : Operand → List Byte
  | .imp | .acc => []
  | .imm b | .rel b | .mem (.zp b) | .mem (.zpx b) | .mem (.zpy b) | .mem (.indx b) | .mem (.indy b) => [b]
  | .ind w | .mem (.abs w) | .mem (.absx w) | .mem (.absy w) => [loByte w, hiByte w]

/-- The bytes of an instruction, the opcode first (R111). -/
def encode (i : Instr) : List Byte := i.opcode :: i.operand.bytes

end Sys2Proof
end

