-- ==== Sys2Proof/Machine/Memory.lean ====
section
/-! DEFINITION. Memories as plain data: a list of (address, byte) cells in one canonical form, addresses strictly rising and
no cell equal to what an unlisted address reads as. Internal RAM (20_memory.md R55), PRG ROM and CHR (R76) are memories. -/

namespace Sys2Proof.Machine

/-- Cells by rising address. -/
abbrev Memory := List Host.Cell

/-- What an unlisted address reads as. DESIGN CHOICE, unsafe (log 1): the spec makes RAM and CHR RAM at power-on a draw
(R325, R326). -/
def Memory.unlisted : Byte := 0

/-- The byte at an address. Cells are in rising order, so the search ends at the first larger address. -/
def Memory.read : Memory → Nat → Byte
  | [], _ => Memory.unlisted
  | (b, w) :: m, a => if a < b then Memory.unlisted else if a = b then w else Memory.read m a

/-- The memory with the byte at an address replaced, in canonical form: writing what an unlisted address reads as removes the
cell. -/
def Memory.write : Memory → Nat → Byte → Memory
  | [], a, v => if v = Memory.unlisted then [] else [(a, v)]
  | (b, w) :: m, a, v =>
    if a < b then (if v = Memory.unlisted then (b, w) :: m else (a, v) :: (b, w) :: m)
    else if a = b then (if v = Memory.unlisted then m.dropWhile (fun c => c.1 ≤ a) else (a, v) :: m)
    else (b, w) :: Memory.write m a v

/-- The canonical form: every address is above `lo`'s predecessors and strictly rises, every byte is a listed one. -/
def Memory.wfFrom : Nat → Memory → Bool
  | _, [] => true
  | lo, (b, w) :: m => decide (lo ≤ b) && decide (w ≠ Memory.unlisted) && Memory.wfFrom (b + 1) m

/-- A memory is in canonical form. -/
def Memory.wf (m : Memory) : Bool := Memory.wfFrom 0 m

/-- Every listed address is below `n`. -/
def Memory.below (n : Nat) (m : Memory) : Bool := m.all (fun c => decide (c.1 < n))

/-- The memory whose bytes from address `a` on are the given ones, and which lists no other address. -/
def Memory.ofBytes : Nat → List Byte → Memory
  | _, [] => []
  | a, v :: vs => if v = Memory.unlisted then Memory.ofBytes (a + 1) vs else (a, v) :: Memory.ofBytes (a + 1) vs

end Sys2Proof.Machine
end

