-- ==== Sys2Proof/Machine/Mapper.lean ====
section
/-! DEFINITION. The cartridge: its image, the five mapper chips, and the four operations of 20_memory.md R75 (rules R75 to
R102). The CPU calls `cpuRead` and `cpuWrite` for 0x4020 to 0xFFFF, the PPU `ppuRead` and `ppuWrite` for 0x0000 to 0x1FFF. -/

namespace Sys2Proof.Machine

/-- The registers of an MMC1 (R83). -/
structure Mmc1 where
  /-- The shift register with its marker bit. -/
  shift : BitVec 5
  mirroring : Mirroring
  /-- `prg_rom_bank_mode`. -/
  prgMode : BitVec 2
  /-- `chr_rom_bank_mode`. -/
  chrMode : Bool
  chrBank0 : BitVec 5
  chrBank1 : BitVec 5
  prgBank : BitVec 4
  deriving DecidableEq, Repr

/-- The mapper variants with their registers (R75, R102: "a closed tagged-variant type with one case per supported chip"). -/
inductive Chip where
  /-- Mapper 0: no register (R78 to R82). -/
  | nrom
  /-- Mapper 1 (R83 to R96). -/
  | mmc1 (r : Mmc1)
  /-- Mapper 2: the 16 KiB bank at 0x8000 (R97). -/
  | uxrom (bank : Byte)
  /-- Mapper 3: the 8 KiB CHR bank (R98). -/
  | cnrom (chrBank : Byte)
  /-- Mapper 4: the parameter `Mmc3` (R99), its state the calls made to it, newest first (log 9). -/
  | mmc3 (calls : List Mmc3Call)
  deriving DecidableEq, Repr

/-- A cartridge: the image of R76 behind its mapper chip. -/
structure Mapper where
  chip : Chip
  /-- `prg_bank_count`, in banks of 16 KiB. -/
  prgBanks : Nat
  /-- `chr_bank_count`, in banks of 8 KiB; zero means 8 KiB of CHR RAM. -/
  chrBanks : Nat
  /-- The header's mirroring bit (R76, R82). -/
  headerMirroring : Mirroring
  /-- PRG ROM, immutable. -/
  prgRom : Memory
  /-- CHR ROM, or CHR RAM when `chrBanks` is zero. -/
  chr : Memory
  deriving DecidableEq, Repr

/-- `prg_size` (R76). -/
def Mapper.prgSize (m : Mapper) : Nat := m.prgBanks * 0x4000

/-- Whether CHR is writable (R76). -/
def Mapper.chrIsRam (m : Mapper) : Bool := m.chrBanks == 0

/-- `chr_size` (R76). -/
def Mapper.chrSize (m : Mapper) : Nat := if m.chrIsRam then 0x2000 else m.chrBanks * 0x2000

/-- The cartridge as an MMC3 sees it: every field but the chip's own state (log 9). -/
def Mapper.image (m : Mapper) : Mmc3Image := ⟨m.prgBanks, m.chrBanks, m.headerMirroring, m.prgRom, m.chr⟩

/-! ### The CPU side -/

/-- The PRG offset MMC1 shows at an address at or above 0x8000 (R90 to R92). -/
def Mmc1.prgOffset (r : Mmc1) (prgSize : Nat) (a : Nat) : Nat :=
  if r.prgMode = 2 then
    if a < 0xC000 then (a - 0x8000) % prgSize else (r.prgBank.toNat * 0x4000 + (a - 0xC000)) % prgSize
  else if r.prgMode = 3 then
    if a < 0xC000 then (r.prgBank.toNat * 0x4000 + (a - 0x8000)) % prgSize else prgSize - 0x4000 + (a - 0xC000)
  else ((r.prgBank &&& 0x0E).toNat * 0x4000 + (a - 0x8000)) % prgSize

/-- The offset into PRG ROM that a CPU address reads, for the chips whose translation the spec gives; `none` below 0x8000,
where the mapper drives nothing (R78, R89, R97, R98), and for MMC3. -/
def Mapper.prgOffset (m : Mapper) (a : Word) : Option Nat :=
  if a < 0x8000 then none else
    match m.chip with
    | .nrom | .cnrom _ => some ((a.toNat - 0x8000) % m.prgSize)
    | .mmc1 r => some (r.prgOffset m.prgSize a.toNat)
    | .uxrom bank =>
      some (if a < 0xC000 then (bank.toNat * 0x4000 + (a.toNat - 0x8000)) % m.prgSize
        else m.prgSize - 0x4000 + (a.toNat - 0xC000))
    | .mmc3 _ => none

/-- `cpu_read(addr, open_bus_value)` (R75, R78, R89 to R92, R97, R98; MMC3: R99). -/
def Mapper.cpuRead (m : Mapper) (a : Word) (ob : Byte) : Byte :=
  match m.chip with
  | .mmc3 calls => Config.mmc3CpuRead m.image calls a ob
  | _ =>
    match m.prgOffset a with
    | some k => m.prgRom.read k
    | none => ob

/-- The 4-entry mirroring table of R87. -/
def mmc1Mirroring (v : BitVec 5) : Mirroring :=
  if v.extractLsb' 0 2 = 0 then .oneScreenLow
  else if v.extractLsb' 0 2 = 1 then .oneScreenHigh
  else if v.extractLsb' 0 2 = 2 then .vertical
  else .horizontal

/-- The commit of a fifth qualifying write: the control register (R87) or a bank register (R88), by address. -/
def Mmc1.commit (r : Mmc1) (a : Word) (v : BitVec 5) : Mmc1 :=
  if a < 0xA000 then
    { r with mirroring := mmc1Mirroring v, prgMode := v.extractLsb' 2 2, chrMode := v.getLsbD 4 }
  else if a < 0xC000 then { r with chrBank0 := v }
  else if a < 0xE000 then { r with chrBank1 := v }
  else { r with prgBank := v.extractLsb' 0 4 }

/-- An MMC1 write at or above 0x8000: the reset write (R85) or a qualifying write (R86). -/
def Mmc1.write (r : Mmc1) (a : Word) (v : Byte) : Mmc1 :=
  if v.getLsbD 7 then { r with shift := 0x10, prgMode := 3 }
  else
    let shifted : BitVec 5 := (r.shift >>> 1) ||| ((v.extractLsb' 0 1).zeroExtend 5 <<< 4)
    if r.shift.getLsbD 0 then { r.commit a shifted with shift := 0x10 }
    else { r with shift := shifted }

/-- `cpu_write(addr, v)` (R75, R79, R84 to R88, R97, R98; MMC3: R99). -/
def Mapper.cpuWrite (m : Mapper) (a : Word) (v : Byte) : Mapper :=
  match m.chip with
  | .nrom => m
  | .mmc1 r => if a < 0x8000 then m else { m with chip := .mmc1 (r.write a v) }
  | .uxrom _ => if a < 0x8000 then m else { m with chip := .uxrom v }
  | .cnrom _ => if a < 0x8000 then m else { m with chip := .cnrom v }
  | .mmc3 calls => { m with chip := .mmc3 (.cpuWrite a v :: calls) }

/-! ### The PPU side -/

/-- The offset into CHR that a PPU pattern address reads, for the chips whose translation the spec gives (R80, R93 to R95,
R97, R98). CHR RAM is never banked (R81, R95). -/
def Mapper.chrOffset (m : Mapper) (a : BitVec 13) : Nat :=
  if m.chrIsRam then a.toNat else
    match m.chip with
    | .mmc1 r =>
      if r.chrMode then
        if a < 0x1000 then (r.chrBank0.toNat * 0x1000 + a.toNat) % m.chrSize
        else (r.chrBank1.toNat * 0x1000 + (a.toNat - 0x1000)) % m.chrSize
      else ((r.chrBank0 &&& 0x1E).toNat * 0x1000 + a.toNat) % m.chrSize
    | .cnrom chrBank => (chrBank.toNat * 0x2000 + a.toNat) % m.chrSize
    | .nrom | .uxrom _ | .mmc3 _ => a.toNat

/-- `ppu_read(addr)` (R75). -/
def Mapper.ppuRead (m : Mapper) (a : BitVec 13) : Byte :=
  match m.chip with
  | .mmc3 calls => Config.mmc3PpuRead m.image calls a
  | _ => m.chr.read (m.chrOffset a)

/-- `ppu_write(addr, v)` (R75, R81, R95, C2): into CHR RAM, nothing with CHR ROM; an MMC3 records the call. -/
def Mapper.ppuWrite (m : Mapper) (a : BitVec 13) (v : Byte) : Mapper :=
  match m.chip with
  | .mmc3 calls => { m with chip := .mmc3 (.ppuWrite a v :: calls) }
  | _ => if m.chrIsRam then { m with chr := m.chr.write (m.chrOffset a) v } else m

/-- The per-scanline hook the PPU invokes: MMC3's `scanline_clock()` (R99), nothing for the other chips. -/
def Mapper.scanlineClock (m : Mapper) : Mapper :=
  match m.chip with
  | .mmc3 calls => { m with chip := .mmc3 (.scanlineClock :: calls) }
  | _ => m

/-- The `mirroring` field (R75): fixed from the header but for MMC1 and MMC3 (R82, R87, R97, R98). -/
def Mapper.mirroring (m : Mapper) : Mirroring :=
  match m.chip with
  | .mmc1 r => r.mirroring
  | .mmc3 calls => Config.mmc3Mirroring m.image calls
  | _ => m.headerMirroring

/-- The physical nametable page of logical nametable `n` (R77). -/
def nametablePage (k : Mirroring) (n : BitVec 2) : BitVec 1 :=
  match k with
  | .horizontal => n.extractLsb' 1 1
  | .vertical => n.extractLsb' 0 1
  | .oneScreenLow => 0
  | .oneScreenHigh => 1

/-- The logical nametable a PPU address lies in (R77): the 1 KiB at 0x2000 + 0x400·n, mirrored at 0x3000 to 0x3EFF; `none`
outside the nametable space. -/
def logicalNametable (a : BitVec 14) : Option (BitVec 2) :=
  if 0x2000 ≤ a ∧ a < 0x3F00 then some (a.extractLsb' 10 2) else none

/-- Where the nametable byte of a PPU address lies in the PPU's 2 KiB of nametable RAM, by the cartridge's `mirroring` now
(R77, D47): the physical page, then the offset in its 1 KiB. The RAM itself is the PPU block's (00_scope.md R4(c)). -/
def Mapper.nametableAddress (m : Mapper) (a : BitVec 14) : Option (BitVec 11) :=
  match logicalNametable a with
  | some n => some (nametablePage m.mirroring n ++ a.extractLsb' 0 10)
  | none => none

/-- `Mapper.irq_out` (R264, R294): MMC3 only, and 0 at power-on, before any call (R328). -/
def Mapper.irqOut (m : Mapper) : Bool :=
  match m.chip with
  | .mmc3 (c :: calls) => Config.mmc3Irq m.image (c :: calls)
  | _ => false

/-! ### Power-on and copy -/

/-- MMC1 at power-on (R96). -/
def Mmc1.powerOn (mirroring : Mirroring) : Mmc1 where
  shift := 0x10
  mirroring := mirroring
  prgMode := 3
  chrMode := false
  chrBank0 := 0
  chrBank1 := 0
  prgBank := 0

/-- The mutable state of a mapper that a snapshot holds (R100): its registers, and the CHR image, which counts only when it
is RAM. -/
structure MapperCopy where
  chip : Chip
  chrRam : Memory
  deriving DecidableEq, Repr

/-- The `copy` of R100 out of a live mapper: "registers and the CHR RAM image if writable". -/
def Mapper.copyOut (m : Mapper) : MapperCopy := ⟨m.chip, if m.chrIsRam then m.chr else []⟩

/-- The `copy` of R100 into a live mapper; the immutable ROM stays. -/
def Mapper.copyIn (m : Mapper) (c : MapperCopy) : Mapper :=
  { m with chip := c.chip, chr := if m.chrIsRam then c.chrRam else m.chr }

end Sys2Proof.Machine
end

