-- ==== Sys2Proof/Machine/State.lean ====
section
/-! DEFINITION. The state of the machine, as plain data, and the state after reset. It holds every piece of state the spec
gives (INVENTORY.md, "State", names the rule of each), the open parameters of 00_scope.md R7, and the model's own fields:
the inputs of the PPU and APU blocks, the records of the calls made to them, and the counter of free values. -/

namespace Sys2Proof

namespace Machine

/-- The six status flags (10_state.md R26); bits 5 and 4 of the status byte are not stored (R27). -/
structure Flags where
  n : Bool
  v : Bool
  d : Bool
  i : Bool
  z : Bool
  c : Bool
  deriving DecidableEq, Repr

/-- CpuState (R20 to R35). -/
structure Cpu where
  a : Byte
  x : Byte
  y : Byte
  sp : Byte
  pc : Word
  p : Flags
  /-- CPU steps still owed by the current instruction or interrupt sequence (R31). -/
  cyclesRemaining : Byte
  /-- An NMI edge was seen and not yet taken (R32). -/
  nmiPending : Bool
  /-- The NMI input at its previous sample (R32, R263). -/
  nmiLinePrev : Bool
  /-- CPU steps to be lost to DMC fetches or sprite DMA (R34). -/
  stallRemaining : Word
  /-- Parity of the number of CPU steps since power-on (R35). -/
  oddCycle : Bool
  /-- The last byte on the bus (R33). -/
  openBus : Byte
  deriving DecidableEq, Repr

/-- The controller latches of the System (20_memory.md R70). -/
structure Pad where
  /-- `controller_byte`: the byte the host supplied last. -/
  byte : Byte
  /-- `controller_shift`. -/
  shift : Byte
  strobe : Bool
  deriving DecidableEq, Repr

/-- A call to `PpuPorts` (60_exceptions.md R285). -/
inductive PpuCall where
  | read (port : BitVec 3)
  | write (port : BitVec 3) (v : Byte)
  deriving DecidableEq, Repr

/-- A call to `ApuPorts` (R285), or a DMC sample byte delivered to the APU (R293). -/
inductive ApuCall where
  | read
  | write (a : Word) (v : Byte)
  | sample (a : Word) (v : Byte)
  deriving DecidableEq, Repr

/-- The PPU as the CPU sees it (R280, R286 to R290). -/
structure Ppu where
  /-- PPUCTRL; bit 7 is `nmi_enable` (R287). -/
  ctrl : Byte
  vblank : Bool
  /-- The internal write toggle (R286, R288). -/
  toggle : Bool
  scanline : Nat
  dot : Nat
  frameOdd : Bool
  /-- The calls made to `PpuPorts`, newest first: the model's record of all that the CPU asked of the PPU block (log 15). -/
  calls : List PpuCall
  deriving DecidableEq, Repr

/-- The APU as the CPU sees it (R264, R291 to R293). -/
structure Apu where
  frameIrq : Bool
  dmcIrq : Bool
  /-- The calls made to `ApuPorts` and the samples delivered, newest first (log 15). -/
  calls : List ApuCall
  deriving DecidableEq, Repr

/-- What the PPU block does to the cartridge on its own: a CHR write through the mapper (R75), or a call of the mapper's
scanline hook (R99). -/
inductive PpuAct where
  | chrWrite (a : BitVec 13) (v : Byte)
  | scanlineClock
  deriving DecidableEq, Repr

/-- What the PPU block does on its own in one PPU step (log 7): its acts on the cartridge, in the order it does them (the spec
gives none, so none is settled here), and whether it shortens an odd frame here (R280). -/
structure PpuTick where
  acts : List PpuAct
  shorten : Bool
  deriving DecidableEq, Repr

/-- What the APU block does on its own in one APU step (log 8): new levels of its IRQ sources (R292, R293), and a DMC sample
fetch (R293). -/
structure ApuTick where
  frameIrq : Option Bool
  dmcIrq : Option Bool
  dmcFetch : Option Word
  deriving DecidableEq, Repr

/-- The model's own fields: the inputs of the device blocks, the next step's first, and the number of free values drawn so
far (log 6, 7, 8), which is part of what a free byte is a function of. A step past the end of a list is an idle one. -/
structure Env where
  ppu : List PpuTick
  apu : List ApuTick
  free : Nat
  deriving DecidableEq, Repr

/-- What a snapshot holds (60_exceptions.md R276, D31): CPU, RAM, latches, PPU, APU, and the mapper through its `copy`. -/
structure Snapshot where
  cpu : Cpu
  ram : Memory
  pad : Pad
  ppu : Ppu
  apu : Apu
  cart : MapperCopy
  deriving DecidableEq, Repr

/-- The System (R36, R276) with its parameters, its inputs and its snapshot slot. -/
structure State where
  cpu : Cpu
  /-- Internal RAM, addresses 0 to 2047 (20_memory.md R55). -/
  ram : Memory
  pad : Pad
  ppu : Ppu
  apu : Apu
  cart : Mapper
  params : Params
  env : Env
  /-- The one snapshot slot (R276). -/
  slot : Option Snapshot
  deriving DecidableEq, Repr

end Machine

open Machine in
/-- FREE VALUE. The byte `PpuPorts.read(port)` returns (R7, R285), but for bit 7 of PPUSTATUS (R288): a function of the port and
of the whole state before the read, in which `env.free` counts the device bytes read so far. What it depends on is the PPU
block's; nothing says that two ports, or two reads of one port, give the same byte (log 6). -/
opaque Config.ppuByte : State → BitVec 3 → Byte

open Machine in
/-- FREE VALUE. The byte `ApuPorts.read()` returns, a read of 0x4015 (R7, R285): a function of the whole state before the read,
and apart from `Config.ppuByte` (log 6). -/
opaque Config.apuByte : State → Byte

namespace Machine

/-- Why the machine stops with a fault. -/
inductive Fault where
  /-- Raised by the fetch of one of the twelve halting bytes when `params.unofficial` is `stuck` (R117, R260, D6): a stuck
  state with no successor. Safe: the chip halts there. -/
  | jam (op : Byte) (pc : Word)
  deriving DecidableEq, Repr

/-- Why a step is refused. -/
inductive Refusal where
  /-- Raised by an arm of `exec` whose instruction has no meaning yet; no arm does. Safe. -/
  | notModelled (mnemonic : String)
  /-- Raised by the fetch of an undocumented opcode at the address `pc` (R117, R260). Safe (D6). -/
  | undocumentedOpcode (op : Byte) (pc : Word)
  deriving DecidableEq, Repr

/-- The open parameter `reset_regs` (R7, R37): A, X, Y, SP and the flags but I, which is 1 at power-on whatever it holds
(D7). -/
structure ResetRegs where
  a : Byte
  x : Byte
  y : Byte
  sp : Byte
  n : Bool
  v : Bool
  d : Bool
  z : Bool
  c : Bool
  deriving DecidableEq, Repr

/-- The defaults of R37. -/
def ResetRegs.default : ResetRegs where
  a := 0
  x := 0
  y := 0
  sp := 0xFD
  n := false
  v := false
  d := false
  z := false
  c := false

/-- The state right after construction (70_reset_and_hazards.md R320, R322 to R328; 10_state.md R37): `PC` from the reset
vector through the mapper (C1, D8), the latch untouched by those reads (D12). -/
def State.powerOn (params : Params) (regs : ResetRegs) (ram : Memory) (cart : Mapper) : State where
  cpu :=
    { a := regs.a, x := regs.x, y := regs.y, sp := regs.sp
      pc := mkWord (cart.cpuRead 0xFFFD 0) (cart.cpuRead 0xFFFC 0)
      p := { n := regs.n, v := regs.v, d := regs.d, i := true, z := regs.z, c := regs.c }
      cyclesRemaining := 0, nmiPending := false, nmiLinePrev := false, stallRemaining := 0
      oddCycle := false, openBus := 0 }
  ram := ram
  pad := { byte := 0, shift := 0, strobe := false }
  ppu := { ctrl := 0, vblank := false, toggle := false, scanline := 0, dot := 0, frameOdd := false, calls := [] }
  apu := { frameIrq := false, dmcIrq := false, calls := [] }
  cart := cart
  params := params
  env := { ppu := [], apu := [], free := 0 }
  slot := none

/-- A blank one-bank NROM cartridge with CHR ROM: the least image the load accepts (R101, R321), every byte 0x00. DESIGN
CHOICE (log 3). -/
def Mapper.blank : Mapper where
  chip := .nrom
  prgBanks := 1
  chrBanks := 1
  headerMirroring := .horizontal
  prgRom := []
  chr := []

/-- The machine right after reset: the defaults of R7 and R37, nothing listed in RAM (log 1) and a blank cartridge (log 3). -/
def State.reset : State := State.powerOn Params.default ResetRegs.default [] Mapper.blank

end Machine

end Sys2Proof
end

