-- ==== Sys2Proof/Machine/Devices.lean ====
section
/-! DEFINITION. The devices behind the CPU's bus: the controller latches (20_memory.md R70 to R74), the PPU ports
(60_exceptions.md R286 to R288) and the APU registers (R291 to R293), each as what an access returns and what it leaves. -/

namespace Sys2Proof.Machine

/-! ### Controller port -/

/-- A write to 0x4016 (R71). -/
def Pad.afterWrite (k : Pad) (v : Byte) : Pad :=
  let strobe := v.getLsbD 0
  { k with strobe := strobe, shift := if strobe then k.byte else k.shift }

/-- The bit a read of 0x4016 returns (R73). -/
def Pad.bit (k : Pad) : Bool := if k.strobe then k.byte.getLsbD 0 else k.shift.getLsbD 0

/-- The latches after a read of 0x4016: while `strobe` is 0 the register shifts right and fills with 1 (R73). -/
def Pad.afterRead (k : Pad) : Pad :=
  if k.strobe then k else { k with shift := (k.shift >>> 1) ||| 0x80 }

/-- `set_controller_state(b)` (R72). -/
def Pad.supply (k : Pad) (b : Byte) : Pad :=
  { k with byte := b, shift := if k.strobe then b else k.shift }

/-- The byte of a controller port: the upper three bits from the latch, the data in bit 0 (R73, R74). -/
def portByte (openBus : Byte) (bit : Bool) : Byte := (openBus &&& 0xE0) ||| (BitVec.ofBool bit).zeroExtend 8

/-! ### PPU ports -/

/-- `Ppu.nmi_out = vblank_flag & nmi_enable`, PPUCTRL bit 7 (R287). -/
def Ppu.nmiOut (p : Ppu) : Bool := p.vblank && p.ctrl.getLsbD 7

/-- What a read of a PPU port returns, given a free byte: PPUSTATUS holds the vblank flag in bit 7 (R288); the rest is the
PPU block's (R285, log 6). -/
def Ppu.portValue (p : Ppu) (port : BitVec 3) (free : Byte) : Byte :=
  if port = 2 then BitVec.ofBool p.vblank ++ free.extractLsb' 0 7 else free

/-- The PPU after a read of a port: a PPUSTATUS read clears the vblank flag and resets the write toggle (R288). -/
def Ppu.afterRead (p : Ppu) (port : BitVec 3) : Ppu :=
  { p with
    vblank := if port = 2 then false else p.vblank
    toggle := if port = 2 then false else p.toggle
    calls := .read port :: p.calls }

/-- The PPU after a write to a port: PPUCTRL is latched (R287), a write to PPUSCROLL or PPUADDR moves the write toggle (R286;
DEDUCED, log 14); the rest is the PPU block's (R285), which has the call. -/
def Ppu.afterWrite (p : Ppu) (port : BitVec 3) (v : Byte) : Ppu :=
  { p with
    ctrl := if port = 0 then v else p.ctrl
    toggle := if port = 5 ∨ port = 6 then !p.toggle else p.toggle
    calls := .write port v :: p.calls }

/-! ### APU registers -/

/-- The APU after a read of 0x4015, which acknowledges the frame interrupt (R56, R292). -/
def Apu.afterRead (u : Apu) : Apu := { u with frameIrq := false, calls := .read :: u.calls }

/-- The APU after a write to one of its registers: the inhibit bit of 0x4017 clears the frame interrupt (R292; log 17). -/
def Apu.afterWrite (u : Apu) (a : Word) (v : Byte) : Apu :=
  { u with
    frameIrq := if a = 0x4017 ∧ v.getLsbD 6 = true then false else u.frameIrq
    calls := .write a v :: u.calls }

/-- The APU after a DMC sample byte was delivered to it (R293). -/
def Apu.afterSample (u : Apu) (a : Word) (v : Byte) : Apu := { u with calls := .sample a v :: u.calls }

/-! ### Free values -/

/-- The environment after one free byte was drawn (log 6). -/
def Env.drawn (e : Env) : Env := { e with free := e.free + 1 }

end Sys2Proof.Machine
end

