-- ==== Sys2Proof/Machine/Flags.lean ====
section
/-! DEFINITION. The status byte (10_state.md R26, R27) and every flag computation of the instruction set: each returns the
result byte, where there is one, and the new flags. -/

namespace Sys2Proof.Machine

/-- The status byte as pushed: `N:V:1:b:D:I:Z:C`, bit 7 first (R27). -/
def Flags.toByte (p : Flags) (b : Bool) : Byte :=
  BitVec.ofBool p.n ++ BitVec.ofBool p.v ++ 1#1 ++ BitVec.ofBool b ++ BitVec.ofBool p.d ++ BitVec.ofBool p.i ++
    BitVec.ofBool p.z ++ BitVec.ofBool p.c

/-- `P <- byte`: the six flags from bits 7, 6, 3, 2, 1, 0; bits 5 and 4 are ignored (R27). -/
def Flags.ofByte (b : Byte) : Flags where
  n := b.getLsbD 7
  v := b.getLsbD 6
  d := b.getLsbD 3
  i := b.getLsbD 2
  z := b.getLsbD 1
  c := b.getLsbD 0

/-- `NZ(r)` (00_scope.md R11). -/
def Flags.nz (p : Flags) (r : Byte) : Flags := { p with n := r.getLsbD 7, z := decide (r = 0) }

/-- ADC (43_arith_logic.md R181): the sum of A, M and the carry, with C, V, N and Z. D is ignored (R180). -/
def Flags.adc (p : Flags) (a m : Byte) : Byte × Flags :=
  let sum : BitVec 9 := a.zeroExtend 9 + m.zeroExtend 9 + (BitVec.ofBool p.c).zeroExtend 9
  let r : Byte := sum.extractLsb' 0 8
  (r, { p with c := sum.getLsbD 8, v := ((a ^^^ r) &&& (m ^^^ r)).getLsbD 7 }.nz r)

/-- SBC (R182): ADC of the complement. -/
def Flags.sbc (p : Flags) (a m : Byte) : Byte × Flags := p.adc a (m ^^^ 0xFF)

/-- CMP, CPX, CPY (R187 to R189): C is `r >= m` unsigned, Z is `r == m`, N is bit 7 of the difference. -/
def Flags.compare (p : Flags) (r m : Byte) : Flags :=
  { p with c := decide (m.toNat ≤ r.toNat), z := decide (r = m), n := (r - m).getLsbD 7 }

/-- BIT (R186): Z from A and M, N and V from bits 7 and 6 of M. -/
def Flags.bit (p : Flags) (a m : Byte) : Flags :=
  { p with z := decide (a &&& m = 0), n := m.getLsbD 7, v := m.getLsbD 6 }

/-- ASL (44_incdec_shift.md R206). -/
def Flags.asl (p : Flags) (v : Byte) : Byte × Flags :=
  let r := v <<< 1
  (r, { p with c := v.getLsbD 7 }.nz r)

/-- LSR (R207). -/
def Flags.lsr (p : Flags) (v : Byte) : Byte × Flags :=
  let r := v >>> 1
  (r, { p with c := v.getLsbD 0 }.nz r)

/-- ROL (R208): the old C enters bit 0. -/
def Flags.rol (p : Flags) (v : Byte) : Byte × Flags :=
  let r := (v <<< 1) ||| (BitVec.ofBool p.c).zeroExtend 8
  (r, { p with c := v.getLsbD 7 }.nz r)

/-- ROR (R209): the old C enters bit 7. -/
def Flags.ror (p : Flags) (v : Byte) : Byte × Flags :=
  let r := ((BitVec.ofBool p.c).zeroExtend 8 <<< 7) ||| (v >>> 1)
  (r, { p with c := v.getLsbD 0 }.nz r)

/-- INC (R200): the incremented byte, with N and Z. -/
def Flags.inc (p : Flags) (v : Byte) : Byte × Flags := (v + 1, p.nz (v + 1))

/-- DEC (R203): the decremented byte, with N and Z. -/
def Flags.dec (p : Flags) (v : Byte) : Byte × Flags := (v - 1, p.nz (v - 1))

end Sys2Proof.Machine
end

