-- ==== Sys2Proof/Machine/Ops.lean ====
section
/-! DEFINITION. The named operations over the state: register writes, the CPU bus (20_memory.md R52 to R57), sprite DMA
(60_exceptions.md R295), the stack (10_state.md R24), and taking an interrupt and returning from one (60_exceptions.md R267,
46_flags_system.md R247, R248). Every access to memory goes through `busRead` and `busWrite`. -/

namespace Sys2Proof.Machine

/-- What a meaning answers. -/
abbrev Result := Host.Outcome State Fault Refusal

/-! ### Register writes -/

/-- `A <- v`. -/
def State.setA (s : State) (v : Byte) : State := { s with cpu := { s.cpu with a := v } }
/-- `X <- v`. -/
def State.setX (s : State) (v : Byte) : State := { s with cpu := { s.cpu with x := v } }
/-- `Y <- v`. -/
def State.setY (s : State) (v : Byte) : State := { s with cpu := { s.cpu with y := v } }
/-- `SP <- v`. -/
def State.setSp (s : State) (v : Byte) : State := { s with cpu := { s.cpu with sp := v } }
/-- `PC <- w`. -/
def State.setPc (s : State) (w : Word) : State := { s with cpu := { s.cpu with pc := w } }
/-- The six flags. -/
def State.setP (s : State) (p : Flags) : State := { s with cpu := { s.cpu with p := p } }
/-- `open_bus <- v` (R54). -/
def State.setOpenBus (s : State) (v : Byte) : State := { s with cpu := { s.cpu with openBus := v } }
/-- `nmi_pending <- b` (R263, R267). -/
def State.setNmiPending (s : State) (b : Bool) : State := { s with cpu := { s.cpu with nmiPending := b } }
/-- `nmi_line_prev <- b` (R263). -/
def State.setNmiLinePrev (s : State) (b : Bool) : State := { s with cpu := { s.cpu with nmiLinePrev := b } }
/-- `stall_remaining <- stall_remaining + n` (R293, R295), modulo its width. -/
def State.addStall (s : State) (n : Word) : State :=
  { s with cpu := { s.cpu with stallRemaining := s.cpu.stallRemaining + n } }
/-- `cycles(n)`: the boundary step sets `cycles_remaining` to n - 1 (R11, R31). -/
def State.setCycles (s : State) (n : Nat) : State :=
  { s with cpu := { s.cpu with cyclesRemaining := BitVec.ofNat 8 (n - 1) } }

/-! ### Updates of one component -/

/-- Internal RAM replaced. -/
def State.setRam (s : State) (m : Memory) : State := { s with ram := m }
/-- The controller latches replaced. -/
def State.setPad (s : State) (k : Pad) : State := { s with pad := k }
/-- The PPU replaced. -/
def State.setPpu (s : State) (p : Ppu) : State := { s with ppu := p }
/-- The APU replaced. -/
def State.setApu (s : State) (u : Apu) : State := { s with apu := u }
/-- The cartridge replaced. -/
def State.setCart (s : State) (m : Mapper) : State := { s with cart := m }
/-- The device inputs and the free counter replaced. -/
def State.setEnv (s : State) (e : Env) : State := { s with env := e }
/-- The snapshot slot replaced. -/
def State.setSlot (s : State) (o : Option Snapshot) : State := { s with slot := o }

/-! ### The address decoder (20_memory.md R52) -/

/-- The target of a CPU bus access. -/
inductive Target where
  /-- Internal RAM, at an index below 2048 (R55). -/
  | ram (k : Nat)
  /-- A PPU register port. -/
  | ppu (port : BitVec 3)
  /-- An APU channel register, 0x4000 to 0x4013. -/
  | apuChannel
  /-- Sprite DMA, 0x4014. -/
  | oamDma
  /-- APU status, 0x4015. -/
  | apuStatus
  /-- The controller port, 0x4016. -/
  | pad
  /-- Controller 2 on a read, the APU frame counter on a write, 0x4017. -/
  | pad2
  /-- Nothing, 0x4018 to 0x401F. -/
  | nothing
  /-- The cartridge, 0x4020 to 0xFFFF. -/
  | cart
  deriving DecidableEq, Repr

/-- Every address goes to exactly one target (R52, R53). -/
def target (a : Word) : Target :=
  if a < 0x2000 then .ram (a &&& 0x07FF).toNat
  else if a < 0x4000 then .ppu (a.extractLsb' 0 3)
  else if a < 0x4014 then .apuChannel
  else if a = 0x4014 then .oamDma
  else if a = 0x4015 then .apuStatus
  else if a = 0x4016 then .pad
  else if a = 0x4017 then .pad2
  else if a < 0x4020 then .nothing
  else .cart

/-- What a read of a target returns and leaves, before the latch (R52 "read"). -/
def targetRead (a : Word) (s : State) : Byte × State :=
  match target a with
  | .ram k => (s.ram.read k, s)
  | .ppu port =>
    (s.ppu.portValue port (Config.ppuByte s port), (s.setPpu (s.ppu.afterRead port)).setEnv s.env.drawn)
  | .apuChannel | .oamDma | .nothing => (s.cpu.openBus, s)
  | .apuStatus => (Config.apuByte s, (s.setApu s.apu.afterRead).setEnv s.env.drawn)
  | .pad => (portByte s.cpu.openBus s.pad.bit, s.setPad s.pad.afterRead)
  | .pad2 => (portByte s.cpu.openBus s.params.controller2, s)
  | .cart => (s.cart.cpuRead a s.cpu.openBus, s)

/-- `MemRead(a, 1)` (00_scope.md R10): one CPU bus read; the latch takes the byte (R54). -/
def busRead (a : Word) (s : State) : Byte × State :=
  let r := targetRead a s
  (r.1, r.2.setOpenBus r.1)

/-- One byte of sprite DMA: a read through the CPU decoder, then a write of OAMDATA, port 4 (R295). -/
def oamCopy (a : Word) (s : State) : State :=
  let r := busRead a s
  r.2.setPpu (r.2.ppu.afterWrite 4 r.1)

/-- The last `n` bytes of a sprite DMA from page `v`, in rising order (R295). -/
def oamCopies (v : Byte) : Nat → State → State
  | 0, s => s
  | n + 1, s => oamCopies v n (oamCopy (mkWord v (BitVec.ofNat 8 (255 - n))) s)

/-- A write to 0x4014 (R295): 256 bytes to OAMDATA and the stall of 513 steps, 514 when the writing step's parity is odd;
nothing when the parameter switches it off. -/
def spriteDma (v : Byte) (s : State) : State :=
  if s.params.oamDmaEnabled then
    (oamCopies v 256 s).addStall (513 + (if s.cpu.oddCycle then 1 else 0))
  else s

/-- What a write to a target leaves (R52 "write", R57). -/
def targetWrite (a : Word) (v : Byte) (s : State) : State :=
  match target a with
  | .ram k => s.setRam (s.ram.write k v)
  | .ppu port => s.setPpu (s.ppu.afterWrite port v)
  | .apuChannel | .apuStatus | .pad2 => s.setApu (s.apu.afterWrite a v)
  | .oamDma => spriteDma v s
  | .pad => s.setPad (s.pad.afterWrite v)
  | .nothing => s
  | .cart => s.setCart (s.cart.cpuWrite a v)

/-- `MemWrite(a, 1, v)` (R10): one CPU bus write. The latch takes the byte (R54), before the accesses of a sprite DMA
(DEDUCED, log 16). -/
def busWrite (a : Word) (v : Byte) (s : State) : State := targetWrite a v (s.setOpenBus v)

/-- `Read16(a)` (R10): low byte first, the second at `a + 1` modulo 2^16. -/
def read16 (a : Word) (s : State) : Word × State :=
  let lo := busRead a s
  let hi := busRead (a + 1) lo.2
  (mkWord hi.1 lo.1, hi.2)

/-! ### The stack (10_state.md R24) -/

/-- `0x0100 | SP`. -/
def stackAddr (sp : Byte) : Word := mkWord 0x01 sp

/-- `Push(v)`: writes the byte and moves SP down, modulo 2^8. -/
def push (v : Byte) (s : State) : State :=
  let t := busWrite (stackAddr s.cpu.sp) v s
  t.setSp (t.cpu.sp - 1)

/-- `Pull()`: moves SP up, modulo 2^8, and reads the byte. -/
def pull (s : State) : Byte × State :=
  let t := s.setSp (s.cpu.sp + 1)
  busRead (stackAddr t.cpu.sp) t

/-- Pushes a 16-bit value, the high byte first (R230, R247, R267). -/
def push16 (w : Word) (s : State) : State := push (loByte w) (push (hiByte w) s)

/-- Pulls a 16-bit value, the low byte first (R231, R248). -/
def pull16 (s : State) : Word × State :=
  let lo := pull s
  let hi := pull lo.2
  (mkWord hi.1 lo.1, hi.2)

/-! ### Interrupts and traps (60_exceptions.md R261, R267; 46_flags_system.md R247, R248) -/

/-- `NMI_VECTOR`, `RESET_VECTOR` and `IRQ_VECTOR` (00_scope.md R6). -/
def nmiVector : Word := 0xFFFA
/-- See `nmiVector`. -/
def resetVector : Word := 0xFFFC
/-- See `nmiVector`; also BRK's. -/
def irqVector : Word := 0xFFFE

/-- Taking an interrupt or the BRK trap: pushes the return address, high byte first, and the status byte with B bit `b`, sets
I, and loads PC from the vector; 7 cycles (R247, R261, R267). D is not changed. -/
def enterInterrupt (vector ret : Word) (b : Bool) (s : State) : State :=
  let s1 := push16 ret s
  let s2 := push (s1.cpu.p.toByte b) s1
  let s3 := s2.setP { s2.cpu.p with i := true }
  let r := read16 vector s3
  (r.2.setPc r.1).setCycles 7

/-- The NMI sequence (R267): the pending edge is taken, the frame holds the address of the instruction not executed. -/
def enterNmi (s : State) : State := enterInterrupt nmiVector s.cpu.pc false (s.setNmiPending false)

/-- The IRQ sequence (R267). -/
def enterIrq (s : State) : State := enterInterrupt irqVector s.cpu.pc false s

/-- RTI (R248): the flags from the pulled byte, bits 5 and 4 ignored, then PC, with no + 1. -/
def returnFromInterrupt (s : State) : State :=
  let b := pull s
  let r := pull16 (b.2.setP (Flags.ofByte b.1))
  r.2.setPc r.1

/-- `IrqLine()`: the OR of the IRQ sources at this moment (R264). -/
def State.irqLine (s : State) : Bool := s.cart.irqOut || s.apu.frameIrq || s.apu.dmcIrq

/-- `NmiSample(l)`: the edge detector (R263). -/
def nmiSample (l : Bool) (s : State) : State :=
  (if l && !s.cpu.nmiLinePrev then s.setNmiPending true else s).setNmiLinePrev l

end Sys2Proof.Machine
end

