-- ==== Sys2Proof/Machine/Operands.lean ====
section
/-! DEFINITION. Effective addresses (40_addressing.md R134 to R143) and operand access by class (R144), with the
page-crossing penalty of the read class (R145). -/

namespace Sys2Proof.Machine

/-- A zero-page address: `0x00 : z` (30_encoding.md R112). -/
def zeroPage (z : Byte) : Word := mkWord 0x00 z

/-- `zext_16(v)` (00_scope.md R8). -/
def zext16 (v : Byte) : Word := v.zeroExtend 16

/-- `sext_16(v)` (00_scope.md R8). -/
def sext16 (v : Byte) : Word := v.signExtend 16

/-- Two addresses lie on different pages (R138, R143). -/
def pageCrossed (a b : Word) : Bool := decide (hiByte a ≠ hiByte b)

/-- An effective address, its page-crossing predicate, and the state after the pointer reads. -/
structure Effective where
  addr : Word
  crossed : Bool
  state : State

/-- `base` indexed by a register: the sum carries into the high byte and wraps modulo 2^16 (R138, R139). -/
def indexed (base : Word) (index : Byte) (s : State) : Effective :=
  ⟨base + zext16 index, pageCrossed (base + zext16 index) base, s⟩

/-- A pointer in the zero page: both bytes are read there, the second at `z + 1` modulo 2^8 (R141, R142). -/
def zeroPagePointer (z : Byte) (s : State) : Word × State :=
  let lo := busRead (zeroPage z) s
  let hi := busRead (zeroPage (z + 1)) lo.2
  (mkWord hi.1 lo.1, hi.2)

/-- `EA(mode)` and `crossed(mode)` (R134 to R139, R141, R142). -/
def effective (m : Mem) (s : State) : Effective :=
  match m with
  | .zp z => ⟨zeroPage z, false, s⟩
  | .zpx z => ⟨zeroPage (z + s.cpu.x), false, s⟩
  | .zpy z => ⟨zeroPage (z + s.cpu.y), false, s⟩
  | .abs w => ⟨w, false, s⟩
  | .absx w => indexed w s.cpu.x s
  | .absy w => indexed w s.cpu.y s
  | .indx z =>
    let r := zeroPagePointer (z + s.cpu.x) s
    ⟨r.1, false, r.2⟩
  | .indy z =>
    let r := zeroPagePointer z s
    indexed r.1 s.cpu.y r.2

/-- The target of JMP (ind) (R140, R229), with the page wrap of the parameter `jmp_indirect_page_wrap`. -/
def indirectTarget (ptr : Word) (s : State) : Word × State :=
  let lo := busRead ptr s
  let hiAddr := if s.params.jmpIndirectPageWrap then mkWord (hiByte ptr) (loByte ptr + 1) else ptr + 1
  let hi := busRead hiAddr lo.2
  (mkWord hi.1 lo.1, hi.2)

/-! ### Operand access by class (R144); `n` is the instruction's `cycles` (R336) -/

/-- The read class on an immediate operand: the value is the operand byte (R133). -/
def readImm (n : Nat) (f : Byte → State → State) (v : Byte) (s : State) : State := (f v s).setCycles n

/-- The read class on a memory operand: exactly one data read, one more cycle when the indexed address crosses a page
(R145). -/
def readMem (n : Nat) (f : Byte → State → State) (m : Mem) (s : State) : State :=
  let e := effective m s
  let r := busRead e.addr e.state
  (f r.1 r.2).setCycles (n + if e.crossed then 1 else 0)

/-- The write class: exactly one data write of a register's value, no read, a fixed count. -/
def writeMem (n : Nat) (v : Byte) (m : Mem) (s : State) : State :=
  let e := effective m s
  (busWrite e.addr v e.state).setCycles n

/-- The read-modify-write class on memory: one read, then one write of the result, a fixed count. -/
def modifyMem (n : Nat) (f : Flags → Byte → Byte × Flags) (m : Mem) (s : State) : State :=
  let e := effective m s
  let r := busRead e.addr e.state
  let q := f r.2.cpu.p r.1
  ((busWrite e.addr q.1 r.2).setP q.2).setCycles n

/-- The read-modify-write class on the accumulator (R132). -/
def modifyAcc (n : Nat) (f : Flags → Byte → Byte × Flags) (s : State) : State :=
  let q := f s.cpu.p s.cpu.a
  ((s.setA q.1).setP q.2).setCycles n

end Sys2Proof.Machine
end

