-- ==== Sys2Proof/Machine/LoadStore.lean ====
section
/-! DEFINITION. Loads and stores: LDA LDX LDY STA STX STY (41_load_store.md R150 to R155). -/

namespace Sys2Proof.Machine

/-- LDA's operation on its operand (R150). -/
def loadA (m : Byte) (s : State) : State := (s.setA m).setP (s.cpu.p.nz m)

/-- LDX's operation (R151). -/
def loadX (m : Byte) (s : State) : State := (s.setX m).setP (s.cpu.p.nz m)

/-- LDY's operation (R152). -/
def loadY (m : Byte) (s : State) : State := (s.setY m).setP (s.cpu.p.nz m)

/-- LDA #v, 0xA9 (R150). -/
def execLdaImm (v : Byte) (s : State) : Result := .next (readImm 2 loadA v s)

/-- LDA z, 0xA5 (R150). -/
def execLdaZp (z : Byte) (s : State) : Result := .next (readMem 3 loadA (.zp z) s)

/-- LDA z,X, 0xB5 (R150). -/
def execLdaZpx (z : Byte) (s : State) : Result := .next (readMem 4 loadA (.zpx z) s)

/-- LDA w, 0xAD (R150). -/
def execLdaAbs (w : Word) (s : State) : Result := .next (readMem 4 loadA (.abs w) s)

/-- LDA w,X, 0xBD (R150). -/
def execLdaAbsx (w : Word) (s : State) : Result := .next (readMem 4 loadA (.absx w) s)

/-- LDA w,Y, 0xB9 (R150). -/
def execLdaAbsy (w : Word) (s : State) : Result := .next (readMem 4 loadA (.absy w) s)

/-- LDA (z,X), 0xA1 (R150). -/
def execLdaIndx (z : Byte) (s : State) : Result := .next (readMem 6 loadA (.indx z) s)

/-- LDA (z),Y, 0xB1 (R150). -/
def execLdaIndy (z : Byte) (s : State) : Result := .next (readMem 5 loadA (.indy z) s)

/-- LDX #v, 0xA2 (R151). -/
def execLdxImm (v : Byte) (s : State) : Result := .next (readImm 2 loadX v s)

/-- LDX z, 0xA6 (R151). -/
def execLdxZp (z : Byte) (s : State) : Result := .next (readMem 3 loadX (.zp z) s)

/-- LDX z,Y, 0xB6 (R151). -/
def execLdxZpy (z : Byte) (s : State) : Result := .next (readMem 4 loadX (.zpy z) s)

/-- LDX w, 0xAE (R151). -/
def execLdxAbs (w : Word) (s : State) : Result := .next (readMem 4 loadX (.abs w) s)

/-- LDX w,Y, 0xBE (R151). -/
def execLdxAbsy (w : Word) (s : State) : Result := .next (readMem 4 loadX (.absy w) s)

/-- LDY #v, 0xA0 (R152). -/
def execLdyImm (v : Byte) (s : State) : Result := .next (readImm 2 loadY v s)

/-- LDY z, 0xA4 (R152). -/
def execLdyZp (z : Byte) (s : State) : Result := .next (readMem 3 loadY (.zp z) s)

/-- LDY z,X, 0xB4 (R152). -/
def execLdyZpx (z : Byte) (s : State) : Result := .next (readMem 4 loadY (.zpx z) s)

/-- LDY w, 0xAC (R152). -/
def execLdyAbs (w : Word) (s : State) : Result := .next (readMem 4 loadY (.abs w) s)

/-- LDY w,X, 0xBC (R152). -/
def execLdyAbsx (w : Word) (s : State) : Result := .next (readMem 4 loadY (.absx w) s)

/-- STA z, 0x85 (R153). -/
def execStaZp (z : Byte) (s : State) : Result := .next (writeMem 3 s.cpu.a (.zp z) s)

/-- STA z,X, 0x95 (R153). -/
def execStaZpx (z : Byte) (s : State) : Result := .next (writeMem 4 s.cpu.a (.zpx z) s)

/-- STA w, 0x8D (R153). -/
def execStaAbs (w : Word) (s : State) : Result := .next (writeMem 4 s.cpu.a (.abs w) s)

/-- STA w,X, 0x9D (R153). -/
def execStaAbsx (w : Word) (s : State) : Result := .next (writeMem 5 s.cpu.a (.absx w) s)

/-- STA w,Y, 0x99 (R153). -/
def execStaAbsy (w : Word) (s : State) : Result := .next (writeMem 5 s.cpu.a (.absy w) s)

/-- STA (z,X), 0x81 (R153). -/
def execStaIndx (z : Byte) (s : State) : Result := .next (writeMem 6 s.cpu.a (.indx z) s)

/-- STA (z),Y, 0x91 (R153). -/
def execStaIndy (z : Byte) (s : State) : Result := .next (writeMem 6 s.cpu.a (.indy z) s)

/-- STX z, 0x86 (R154). -/
def execStxZp (z : Byte) (s : State) : Result := .next (writeMem 3 s.cpu.x (.zp z) s)

/-- STX z,Y, 0x96 (R154). -/
def execStxZpy (z : Byte) (s : State) : Result := .next (writeMem 4 s.cpu.x (.zpy z) s)

/-- STX w, 0x8E (R154). -/
def execStxAbs (w : Word) (s : State) : Result := .next (writeMem 4 s.cpu.x (.abs w) s)

/-- STY z, 0x84 (R155). -/
def execStyZp (z : Byte) (s : State) : Result := .next (writeMem 3 s.cpu.y (.zp z) s)

/-- STY z,X, 0x94 (R155). -/
def execStyZpx (z : Byte) (s : State) : Result := .next (writeMem 4 s.cpu.y (.zpx z) s)

/-- STY w, 0x8C (R155). -/
def execStyAbs (w : Word) (s : State) : Result := .next (writeMem 4 s.cpu.y (.abs w) s)

end Sys2Proof.Machine
end

