-- ==== Sys2Proof/Machine/Arith.lean ====
section
/-! DEFINITION. Arithmetic, logic and compare (43_arith_logic.md R180 to R189). -/

namespace Sys2Proof.Machine

/-- ADC's operation on its operand (R181). -/
def addA (m : Byte) (s : State) : State :=
  let q := s.cpu.p.adc s.cpu.a m
  (s.setA q.1).setP q.2

/-- SBC's operation (R182). -/
def subtractA (m : Byte) (s : State) : State :=
  let q := s.cpu.p.sbc s.cpu.a m
  (s.setA q.1).setP q.2

/-- AND's operation (R183). -/
def andA (m : Byte) (s : State) : State := loadA (s.cpu.a &&& m) s

/-- ORA's operation (R184). -/
def orA (m : Byte) (s : State) : State := loadA (s.cpu.a ||| m) s

/-- EOR's operation (R185). -/
def eorA (m : Byte) (s : State) : State := loadA (s.cpu.a ^^^ m) s

/-- BIT's operation (R186): only N, V and Z are written. -/
def bitTest (m : Byte) (s : State) : State := s.setP (s.cpu.p.bit s.cpu.a m)

/-- CMP's operation (R187): only N, Z and C are written. -/
def compareA (m : Byte) (s : State) : State := s.setP (s.cpu.p.compare s.cpu.a m)

/-- CPX's operation (R188). -/
def compareX (m : Byte) (s : State) : State := s.setP (s.cpu.p.compare s.cpu.x m)

/-- CPY's operation (R189). -/
def compareY (m : Byte) (s : State) : State := s.setP (s.cpu.p.compare s.cpu.y m)

/-- ADC #v, 0x69 (R181). -/
def execAdcImm (v : Byte) (s : State) : Result := .next (readImm 2 addA v s)

/-- ADC z, 0x65 (R181). -/
def execAdcZp (z : Byte) (s : State) : Result := .next (readMem 3 addA (.zp z) s)

/-- ADC z,X, 0x75 (R181). -/
def execAdcZpx (z : Byte) (s : State) : Result := .next (readMem 4 addA (.zpx z) s)

/-- ADC w, 0x6D (R181). -/
def execAdcAbs (w : Word) (s : State) : Result := .next (readMem 4 addA (.abs w) s)

/-- ADC w,X, 0x7D (R181). -/
def execAdcAbsx (w : Word) (s : State) : Result := .next (readMem 4 addA (.absx w) s)

/-- ADC w,Y, 0x79 (R181). -/
def execAdcAbsy (w : Word) (s : State) : Result := .next (readMem 4 addA (.absy w) s)

/-- ADC (z,X), 0x61 (R181). -/
def execAdcIndx (z : Byte) (s : State) : Result := .next (readMem 6 addA (.indx z) s)

/-- ADC (z),Y, 0x71 (R181). -/
def execAdcIndy (z : Byte) (s : State) : Result := .next (readMem 5 addA (.indy z) s)

/-- SBC #v, 0xE9 (R182). -/
def execSbcImm (v : Byte) (s : State) : Result := .next (readImm 2 subtractA v s)

/-- SBC z, 0xE5 (R182). -/
def execSbcZp (z : Byte) (s : State) : Result := .next (readMem 3 subtractA (.zp z) s)

/-- SBC z,X, 0xF5 (R182). -/
def execSbcZpx (z : Byte) (s : State) : Result := .next (readMem 4 subtractA (.zpx z) s)

/-- SBC w, 0xED (R182). -/
def execSbcAbs (w : Word) (s : State) : Result := .next (readMem 4 subtractA (.abs w) s)

/-- SBC w,X, 0xFD (R182). -/
def execSbcAbsx (w : Word) (s : State) : Result := .next (readMem 4 subtractA (.absx w) s)

/-- SBC w,Y, 0xF9 (R182). -/
def execSbcAbsy (w : Word) (s : State) : Result := .next (readMem 4 subtractA (.absy w) s)

/-- SBC (z,X), 0xE1 (R182). -/
def execSbcIndx (z : Byte) (s : State) : Result := .next (readMem 6 subtractA (.indx z) s)

/-- SBC (z),Y, 0xF1 (R182). -/
def execSbcIndy (z : Byte) (s : State) : Result := .next (readMem 5 subtractA (.indy z) s)

/-- AND #v, 0x29 (R183). -/
def execAndImm (v : Byte) (s : State) : Result := .next (readImm 2 andA v s)

/-- AND z, 0x25 (R183). -/
def execAndZp (z : Byte) (s : State) : Result := .next (readMem 3 andA (.zp z) s)

/-- AND z,X, 0x35 (R183). -/
def execAndZpx (z : Byte) (s : State) : Result := .next (readMem 4 andA (.zpx z) s)

/-- AND w, 0x2D (R183). -/
def execAndAbs (w : Word) (s : State) : Result := .next (readMem 4 andA (.abs w) s)

/-- AND w,X, 0x3D (R183). -/
def execAndAbsx (w : Word) (s : State) : Result := .next (readMem 4 andA (.absx w) s)

/-- AND w,Y, 0x39 (R183). -/
def execAndAbsy (w : Word) (s : State) : Result := .next (readMem 4 andA (.absy w) s)

/-- AND (z,X), 0x21 (R183). -/
def execAndIndx (z : Byte) (s : State) : Result := .next (readMem 6 andA (.indx z) s)

/-- AND (z),Y, 0x31 (R183). -/
def execAndIndy (z : Byte) (s : State) : Result := .next (readMem 5 andA (.indy z) s)

/-- ORA #v, 0x09 (R184). -/
def execOraImm (v : Byte) (s : State) : Result := .next (readImm 2 orA v s)

/-- ORA z, 0x05 (R184). -/
def execOraZp (z : Byte) (s : State) : Result := .next (readMem 3 orA (.zp z) s)

/-- ORA z,X, 0x15 (R184). -/
def execOraZpx (z : Byte) (s : State) : Result := .next (readMem 4 orA (.zpx z) s)

/-- ORA w, 0x0D (R184). -/
def execOraAbs (w : Word) (s : State) : Result := .next (readMem 4 orA (.abs w) s)

/-- ORA w,X, 0x1D (R184). -/
def execOraAbsx (w : Word) (s : State) : Result := .next (readMem 4 orA (.absx w) s)

/-- ORA w,Y, 0x19 (R184). -/
def execOraAbsy (w : Word) (s : State) : Result := .next (readMem 4 orA (.absy w) s)

/-- ORA (z,X), 0x01 (R184). -/
def execOraIndx (z : Byte) (s : State) : Result := .next (readMem 6 orA (.indx z) s)

/-- ORA (z),Y, 0x11 (R184). -/
def execOraIndy (z : Byte) (s : State) : Result := .next (readMem 5 orA (.indy z) s)

/-- EOR #v, 0x49 (R185). -/
def execEorImm (v : Byte) (s : State) : Result := .next (readImm 2 eorA v s)

/-- EOR z, 0x45 (R185). -/
def execEorZp (z : Byte) (s : State) : Result := .next (readMem 3 eorA (.zp z) s)

/-- EOR z,X, 0x55 (R185). -/
def execEorZpx (z : Byte) (s : State) : Result := .next (readMem 4 eorA (.zpx z) s)

/-- EOR w, 0x4D (R185). -/
def execEorAbs (w : Word) (s : State) : Result := .next (readMem 4 eorA (.abs w) s)

/-- EOR w,X, 0x5D (R185). -/
def execEorAbsx (w : Word) (s : State) : Result := .next (readMem 4 eorA (.absx w) s)

/-- EOR w,Y, 0x59 (R185). -/
def execEorAbsy (w : Word) (s : State) : Result := .next (readMem 4 eorA (.absy w) s)

/-- EOR (z,X), 0x41 (R185). -/
def execEorIndx (z : Byte) (s : State) : Result := .next (readMem 6 eorA (.indx z) s)

/-- EOR (z),Y, 0x51 (R185). -/
def execEorIndy (z : Byte) (s : State) : Result := .next (readMem 5 eorA (.indy z) s)

/-- BIT z, 0x24 (R186). -/
def execBitZp (z : Byte) (s : State) : Result := .next (readMem 3 bitTest (.zp z) s)

/-- BIT w, 0x2C (R186). -/
def execBitAbs (w : Word) (s : State) : Result := .next (readMem 4 bitTest (.abs w) s)

/-- CMP #v, 0xC9 (R187). -/
def execCmpImm (v : Byte) (s : State) : Result := .next (readImm 2 compareA v s)

/-- CMP z, 0xC5 (R187). -/
def execCmpZp (z : Byte) (s : State) : Result := .next (readMem 3 compareA (.zp z) s)

/-- CMP z,X, 0xD5 (R187). -/
def execCmpZpx (z : Byte) (s : State) : Result := .next (readMem 4 compareA (.zpx z) s)

/-- CMP w, 0xCD (R187). -/
def execCmpAbs (w : Word) (s : State) : Result := .next (readMem 4 compareA (.abs w) s)

/-- CMP w,X, 0xDD (R187). -/
def execCmpAbsx (w : Word) (s : State) : Result := .next (readMem 4 compareA (.absx w) s)

/-- CMP w,Y, 0xD9 (R187). -/
def execCmpAbsy (w : Word) (s : State) : Result := .next (readMem 4 compareA (.absy w) s)

/-- CMP (z,X), 0xC1 (R187). -/
def execCmpIndx (z : Byte) (s : State) : Result := .next (readMem 6 compareA (.indx z) s)

/-- CMP (z),Y, 0xD1 (R187). -/
def execCmpIndy (z : Byte) (s : State) : Result := .next (readMem 5 compareA (.indy z) s)

/-- CPX #v, 0xE0 (R188). -/
def execCpxImm (v : Byte) (s : State) : Result := .next (readImm 2 compareX v s)

/-- CPX z, 0xE4 (R188). -/
def execCpxZp (z : Byte) (s : State) : Result := .next (readMem 3 compareX (.zp z) s)

/-- CPX w, 0xEC (R188). -/
def execCpxAbs (w : Word) (s : State) : Result := .next (readMem 4 compareX (.abs w) s)

/-- CPY #v, 0xC0 (R189). -/
def execCpyImm (v : Byte) (s : State) : Result := .next (readImm 2 compareY v s)

/-- CPY z, 0xC4 (R189). -/
def execCpyZp (z : Byte) (s : State) : Result := .next (readMem 3 compareY (.zp z) s)

/-- CPY w, 0xCC (R189). -/
def execCpyAbs (w : Word) (s : State) : Result := .next (readMem 4 compareY (.abs w) s)

end Sys2Proof.Machine
end

