-- ==== Sys2Proof/Machine/Control.lean ====
section
/-! DEFINITION. Branches, jumps, calls and returns (45_control.md R220 to R231). The state a meaning gets is the one after the
fetch: its PC is `PCn`, the address of the next instruction. -/

namespace Sys2Proof.Machine

/-- `target` of a branch: the address after the 2-byte branch plus the sign-extended offset (R143). -/
def branchTarget (d : Byte) (s : State) : Word := s.cpu.pc + sext16 d

/-- The common rule of the conditional branches (R220): 2 cycles not taken, 3 taken, 4 taken to another page. -/
def branch (cond : Bool) (d : Byte) (s : State) : State :=
  if cond then
    (s.setPc (branchTarget d s)).setCycles (3 + if pageCrossed (branchTarget d s) s.cpu.pc then 1 else 0)
  else s.setCycles 2

/-- BCC d, 0x90 (R221). -/
def execBcc (d : Byte) (s : State) : Result := .next (branch (!s.cpu.p.c) d s)

/-- BCS d, 0xB0 (R222). -/
def execBcs (d : Byte) (s : State) : Result := .next (branch s.cpu.p.c d s)

/-- BEQ d, 0xF0 (R223). -/
def execBeq (d : Byte) (s : State) : Result := .next (branch s.cpu.p.z d s)

/-- BMI d, 0x30 (R224). -/
def execBmi (d : Byte) (s : State) : Result := .next (branch s.cpu.p.n d s)

/-- BNE d, 0xD0 (R225). -/
def execBne (d : Byte) (s : State) : Result := .next (branch (!s.cpu.p.z) d s)

/-- BPL d, 0x10 (R226). -/
def execBpl (d : Byte) (s : State) : Result := .next (branch (!s.cpu.p.n) d s)

/-- BVC d, 0x50 (R227). -/
def execBvc (d : Byte) (s : State) : Result := .next (branch (!s.cpu.p.v) d s)

/-- BVS d, 0x70 (R228). -/
def execBvs (d : Byte) (s : State) : Result := .next (branch s.cpu.p.v d s)

/-- JMP w, 0x4C (R229). -/
def execJmpAbs (w : Word) (s : State) : Result := .next ((s.setPc w).setCycles 3)

/-- JMP (w), 0x6C (R229). -/
def execJmpInd (w : Word) (s : State) : Result :=
  let r := indirectTarget w s
  .next ((r.2.setPc r.1).setCycles 5)

/-- JSR w, 0x20 (R230). -/
def execJsr (w : Word) (s : State) : Result := .next (((push16 (s.cpu.pc - 1) s).setPc w).setCycles 6)

/-- RTS, 0x60 (R231). -/
def execRts (s : State) : Result :=
  let r := pull16 s
  .next ((r.2.setPc (r.1 + 1)).setCycles 6)

end Sys2Proof.Machine
end

