-- ==== Sys2Proof/Machine/IncShift.lean ====
section
/-! DEFINITION. Increments, decrements, shifts and rotates (44_incdec_shift.md R200 to R209). -/

namespace Sys2Proof.Machine

/-- INC z, 0xE6 (R200). -/
def execIncZp (z : Byte) (s : State) : Result := .next (modifyMem 5 Flags.inc (.zp z) s)

/-- INC z,X, 0xF6 (R200). -/
def execIncZpx (z : Byte) (s : State) : Result := .next (modifyMem 6 Flags.inc (.zpx z) s)

/-- INC w, 0xEE (R200). -/
def execIncAbs (w : Word) (s : State) : Result := .next (modifyMem 6 Flags.inc (.abs w) s)

/-- INC w,X, 0xFE (R200). -/
def execIncAbsx (w : Word) (s : State) : Result := .next (modifyMem 7 Flags.inc (.absx w) s)

/-- INX, 0xE8 (R201). -/
def execInx (s : State) : Result := .next ((loadX (s.cpu.x + 1) s).setCycles 2)

/-- INY, 0xC8 (R202). -/
def execIny (s : State) : Result := .next ((loadY (s.cpu.y + 1) s).setCycles 2)

/-- DEC z, 0xC6 (R203). -/
def execDecZp (z : Byte) (s : State) : Result := .next (modifyMem 5 Flags.dec (.zp z) s)

/-- DEC z,X, 0xD6 (R203). -/
def execDecZpx (z : Byte) (s : State) : Result := .next (modifyMem 6 Flags.dec (.zpx z) s)

/-- DEC w, 0xCE (R203). -/
def execDecAbs (w : Word) (s : State) : Result := .next (modifyMem 6 Flags.dec (.abs w) s)

/-- DEC w,X, 0xDE (R203). -/
def execDecAbsx (w : Word) (s : State) : Result := .next (modifyMem 7 Flags.dec (.absx w) s)

/-- DEX, 0xCA (R204). -/
def execDex (s : State) : Result := .next ((loadX (s.cpu.x - 1) s).setCycles 2)

/-- DEY, 0x88 (R205). -/
def execDey (s : State) : Result := .next ((loadY (s.cpu.y - 1) s).setCycles 2)

/-- ASL A, 0x0A (R206). -/
def execAslAcc (s : State) : Result := .next (modifyAcc 2 Flags.asl s)

/-- ASL z, 0x06 (R206). -/
def execAslZp (z : Byte) (s : State) : Result := .next (modifyMem 5 Flags.asl (.zp z) s)

/-- ASL z,X, 0x16 (R206). -/
def execAslZpx (z : Byte) (s : State) : Result := .next (modifyMem 6 Flags.asl (.zpx z) s)

/-- ASL w, 0x0E (R206). -/
def execAslAbs (w : Word) (s : State) : Result := .next (modifyMem 6 Flags.asl (.abs w) s)

/-- ASL w,X, 0x1E (R206). -/
def execAslAbsx (w : Word) (s : State) : Result := .next (modifyMem 7 Flags.asl (.absx w) s)

/-- LSR A, 0x4A (R207). -/
def execLsrAcc (s : State) : Result := .next (modifyAcc 2 Flags.lsr s)

/-- LSR z, 0x46 (R207). -/
def execLsrZp (z : Byte) (s : State) : Result := .next (modifyMem 5 Flags.lsr (.zp z) s)

/-- LSR z,X, 0x56 (R207). -/
def execLsrZpx (z : Byte) (s : State) : Result := .next (modifyMem 6 Flags.lsr (.zpx z) s)

/-- LSR w, 0x4E (R207). -/
def execLsrAbs (w : Word) (s : State) : Result := .next (modifyMem 6 Flags.lsr (.abs w) s)

/-- LSR w,X, 0x5E (R207). -/
def execLsrAbsx (w : Word) (s : State) : Result := .next (modifyMem 7 Flags.lsr (.absx w) s)

/-- ROL A, 0x2A (R208). -/
def execRolAcc (s : State) : Result := .next (modifyAcc 2 Flags.rol s)

/-- ROL z, 0x26 (R208). -/
def execRolZp (z : Byte) (s : State) : Result := .next (modifyMem 5 Flags.rol (.zp z) s)

/-- ROL z,X, 0x36 (R208). -/
def execRolZpx (z : Byte) (s : State) : Result := .next (modifyMem 6 Flags.rol (.zpx z) s)

/-- ROL w, 0x2E (R208). -/
def execRolAbs (w : Word) (s : State) : Result := .next (modifyMem 6 Flags.rol (.abs w) s)

/-- ROL w,X, 0x3E (R208). -/
def execRolAbsx (w : Word) (s : State) : Result := .next (modifyMem 7 Flags.rol (.absx w) s)

/-- ROR A, 0x6A (R209). -/
def execRorAcc (s : State) : Result := .next (modifyAcc 2 Flags.ror s)

/-- ROR z, 0x66 (R209). -/
def execRorZp (z : Byte) (s : State) : Result := .next (modifyMem 5 Flags.ror (.zp z) s)

/-- ROR z,X, 0x76 (R209). -/
def execRorZpx (z : Byte) (s : State) : Result := .next (modifyMem 6 Flags.ror (.zpx z) s)

/-- ROR w, 0x6E (R209). -/
def execRorAbs (w : Word) (s : State) : Result := .next (modifyMem 6 Flags.ror (.abs w) s)

/-- ROR w,X, 0x7E (R209). -/
def execRorAbsx (w : Word) (s : State) : Result := .next (modifyMem 7 Flags.ror (.absx w) s)

end Sys2Proof.Machine
end

