-- ==== Sys2Proof/Machine/System.lean ====
section
/-! DEFINITION. Flag and system instructions (46_flags_system.md R240 to R249). BRK gets the state after the fetch, so its PC is the
address of the opcode plus 1. -/

namespace Sys2Proof.Machine

/-- CLC, 0x18 (R240). -/
def execClc (s : State) : Result := .next ((s.setP { s.cpu.p with c := false }).setCycles 2)

/-- CLD, 0xD8 (R241). -/
def execCld (s : State) : Result := .next ((s.setP { s.cpu.p with d := false }).setCycles 2)

/-- CLI, 0x58 (R242). -/
def execCli (s : State) : Result := .next ((s.setP { s.cpu.p with i := false }).setCycles 2)

/-- CLV, 0xB8 (R243). -/
def execClv (s : State) : Result := .next ((s.setP { s.cpu.p with v := false }).setCycles 2)

/-- SEC, 0x38 (R244). -/
def execSec (s : State) : Result := .next ((s.setP { s.cpu.p with c := true }).setCycles 2)

/-- SED, 0xF8 (R245). -/
def execSed (s : State) : Result := .next ((s.setP { s.cpu.p with d := true }).setCycles 2)

/-- SEI, 0x78 (R246). -/
def execSei (s : State) : Result := .next ((s.setP { s.cpu.p with i := true }).setCycles 2)

/-- BRK, 0x00 (R247): the return address is the opcode's address + 2, the frame has
B = 1, and the trap takes 7 cycles whatever I holds. -/
def execBrk (s : State) : Result := .next (enterInterrupt irqVector (s.cpu.pc + 1) true s)

/-- RTI, 0x40 (R248). -/
def execRti (s : State) : Result := .next ((returnFromInterrupt s).setCycles 6)

/-- NOP, 0xEA (R249). -/
def execNop (s : State) : Result := .next (s.setCycles 2)

end Sys2Proof.Machine
end

