-- ==== Sys2Proof/Machine/Transfer.lean ====
section
/-! DEFINITION. Register transfers and stack operations (42_transfer_stack.md R160 to R169). -/

namespace Sys2Proof.Machine

/-- TAX, 0xAA (R160). -/
def execTax (s : State) : Result := .next ((loadX s.cpu.a s).setCycles 2)

/-- TAY, 0xA8 (R161). -/
def execTay (s : State) : Result := .next ((loadY s.cpu.a s).setCycles 2)

/-- TSX, 0xBA (R162). -/
def execTsx (s : State) : Result := .next ((loadX s.cpu.sp s).setCycles 2)

/-- TXA, 0x8A (R163). -/
def execTxa (s : State) : Result := .next ((loadA s.cpu.x s).setCycles 2)

/-- TXS, 0x9A (R164). -/
def execTxs (s : State) : Result := .next ((s.setSp s.cpu.x).setCycles 2)

/-- TYA, 0x98 (R165). -/
def execTya (s : State) : Result := .next ((loadA s.cpu.y s).setCycles 2)

/-- PHA, 0x48 (R166). -/
def execPha (s : State) : Result := .next ((push s.cpu.a s).setCycles 3)

/-- PHP, 0x08 (R167). -/
def execPhp (s : State) : Result := .next ((push (s.cpu.p.toByte true) s).setCycles 3)

/-- PLA, 0x68 (R168). -/
def execPla (s : State) : Result :=
  let r := pull s
  .next ((loadA r.1 r.2).setCycles 4)

/-- PLP, 0x28 (R169). -/
def execPlp (s : State) : Result :=
  let r := pull s
  .next ((r.2.setP (Flags.ofByte r.1)).setCycles 4)

end Sys2Proof.Machine
end

