-- ==== Sys2Proof/Machine/Fetch.lean ====
section
/-! DEFINITION. Fetching an instruction through the bus and running it (30_encoding.md R117, R121), and storing an instruction
where the next fetch reads it. -/

namespace Sys2Proof.Machine

/-- `MemRead(PC, 1); PC <- PC + 1` (R121), modulo 2^16 (10_state.md R25). -/
def fetchByte (s : State) : Byte × State :=
  let r := busRead s.cpu.pc s
  (r.1, r.2.setPc (r.2.cpu.pc + 1))

/-- What a fetch answers: an instruction and the state after its bytes were read, PC past them; or an undocumented opcode. -/
inductive Fetched where
  | instr (i : Instr) (s : State)
  | undocumented (op : Byte)

/-- The fetch of R121: the opcode, then exactly the operand bytes its mode needs. -/
def fetch (s : State) : Fetched :=
  let op := fetchByte s
  match decodeOpcode op.1 with
  | none => .undocumented op.1
  | some (.one i) => .instr i op.2
  | some (.byte f) =>
    let b := fetchByte op.2
    .instr (f b.1) b.2
  | some (.word f) =>
    let lo := fetchByte op.2
    let hi := fetchByte lo.2
    .instr (f (mkWord hi.1 lo.1)) hi.2

/-- An undocumented opcode at `pc` (R117, R260): a refusal, or a stuck state for a halting byte when the parameter
`unofficial_opcode_behaviour` says so. -/
def refuseOpcode (u : Unofficial) (op : Byte) (pc : Word) : Result :=
  if u = .stuck ∧ op ∈ haltingOpcodes then .fault (.jam op pc) else .refused (.undocumentedOpcode op pc)

/-- `FetchExecute` (R121, R273). -/
def fetchExecute (s : State) : Result :=
  match fetch s with
  | .instr i t => exec i t
  | .undocumented op => refuseOpcode s.params.unofficial op s.cpu.pc

/-! ### Storing an instruction where it is fetched (the host's `withFetchWord`) -/

/-- The state with the byte a fetch at `a` reads replaced, where `a` is in internal RAM or in PRG ROM behind a chip whose
translation the spec gives. -/
def State.plant (s : State) (a : Word) (v : Byte) : Option State :=
  match target a with
  | .ram k => some (s.setRam (s.ram.write k v))
  | .cart =>
    match s.cart.prgOffset a with
    | some k => some (s.setCart { s.cart with prgRom := s.cart.prgRom.write k v })
    | none => none
  | _ => none

/-- Bytes planted from `a` on. -/
def State.plantAll (s : State) (a : Word) : List Byte → Option State
  | [] => some s
  | v :: vs =>
    match s.plant a v with
    | some t => t.plantAll (a + 1) vs
    | none => none

/-- The state with no stall, no countdown and no interrupt to take, so that the next CPU step fetches (R266, R273; log 30). -/
def State.atBoundary (s : State) : State :=
  let t := s.setNmiPending false
  let t := { t with cpu := { t.cpu with cyclesRemaining := 0, stallRemaining := 0 } }
  if t.irqLine && !t.cpu.p.i then t.setP { t.cpu.p with i := true } else t

/-- Bytes stored where the next step fetches: at PC, or, where PC names no storage, at 0x0000 with PC moved there. -/
def State.withFetchBytes (s : State) (bytes : List Byte) : State :=
  let t := s.atBoundary
  match t.plantAll t.cpu.pc bytes with
  | some u => u
  | none => ((t.setPc 0).plantAll 0 bytes).getD t

end Sys2Proof.Machine
end

