-- ==== Sys2Proof/Machine/CpuStep.lean ====
section
/-! DEFINITION. The CPU step (60_exceptions.md R265, R266, R273, R274): a stall step, a countdown step, or an instruction
boundary that takes an interrupt or runs one whole instruction. -/

namespace Sys2Proof.Machine

/-- `odd_cycle <- not parity` (10_state.md R35). -/
def State.toggleOdd (s : State) : State := { s with cpu := { s.cpu with oddCycle := !s.cpu.oddCycle } }

/-- A stall step (R274). -/
def State.countStall (s : State) : State :=
  { s with cpu := { s.cpu with stallRemaining := s.cpu.stallRemaining - 1 } }

/-- A countdown step of the current instruction (10_state.md R31). -/
def State.countCycle (s : State) : State :=
  { s with cpu := { s.cpu with cyclesRemaining := s.cpu.cyclesRemaining - 1 } }

/-- The next state, if there is one, transformed. -/
def andThen (f : State → State) : Result → Result
  | .next s => .next (f s)
  | .fault e => .fault e
  | .refused e => .refused e

/-- An instruction boundary: NMI, then an unmasked IRQ, then the instruction at PC (R265, R266). -/
def boundary (s : State) : Result :=
  if s.cpu.nmiPending then .next (enterNmi s)
  else if s.irqLine && !s.cpu.p.i then .next (enterIrq s)
  else fetchExecute s

/-- `CpuStep()` (R273). -/
def cpuStep (s : State) : Result :=
  if s.cpu.stallRemaining ≠ 0 then .next s.countStall.toggleOdd
  else if s.cpu.cyclesRemaining ≠ 0 then .next s.countCycle.toggleOdd
  else andThen State.toggleOdd (boundary s)

end Sys2Proof.Machine
end

