-- ==== Sys2Proof/Machine/Interleave.lean ====
section
/-! DEFINITION. The PPU and APU steps as the CPU sees them, and the interleave (60_exceptions.md R275, R280, R287 to R293). What
the two blocks do on their own is read from the state's inputs (log 7, 8). -/

namespace Sys2Proof.Machine

/-- A PPU step in which the block does nothing on its own. -/
def PpuTick.idle : PpuTick := { acts := [], shorten := false }

/-- An APU step in which the block does nothing on its own. -/
def ApuTick.idle : ApuTick := { frameIrq := none, dmcIrq := none, dmcFetch := none }

/-- The vblank flag at a position (R289): set at scanline 241 dot 1, clear on scanlines 0 to 240 and on scanline 261 from the
reset point on, otherwise as it was (log 13). -/
def vblankAt (clearDot line dot : Nat) (old : Bool) : Bool :=
  if line = 241 ∧ dot = 1 then true
  else if line ≤ 240 ∨ (line = 261 ∧ clearDot ≤ dot) then false
  else old

/-- Whether a PPU step ends its scanline: after dot 340 (R280), or one dot earlier where the block shortens an odd frame (log
11). -/
def Ppu.lineEnds (p : Ppu) (shorten : Bool) : Bool :=
  decide (340 ≤ p.dot) || (shorten && p.frameOdd && decide (p.scanline = 261) && decide (p.dot = 339))

/-- The PPU's position and vblank flag after one PPU step: 341 dots a line, 262 lines a frame (R280, R289, R290). -/
def Ppu.advance (p : Ppu) (clearDot : Nat) (shorten : Bool) : Ppu :=
  let ends := p.lineEnds shorten
  let dot := if ends then 0 else p.dot + 1
  let line := if ends then (if 261 ≤ p.scanline then 0 else p.scanline + 1) else p.scanline
  { p with
    dot := dot
    scanline := line
    frameOdd := if ends && decide (261 ≤ p.scanline) then !p.frameOdd else p.frameOdd
    vblank := vblankAt clearDot line dot p.vblank }

/-- One act of the PPU block on the cartridge (R75, R99). -/
def PpuAct.onCart (m : Mapper) : PpuAct → Mapper
  | .chrWrite a v => m.ppuWrite a v
  | .scanlineClock => m.scanlineClock

/-- What the PPU block does on its own to the cartridge in one step: its acts in the order the input gives them, whatever that
is, since the spec orders no two of them (R62, R75, R99, R294; log 7). -/
def PpuTick.onCart (t : PpuTick) (m : Mapper) : Mapper := t.acts.foldl PpuAct.onCart m

/-- The input of the next PPU step; past the end of the list, an idle one. -/
def Env.ppuTick (e : Env) : PpuTick := e.ppu.headD PpuTick.idle

/-- The input of the next APU step; past the end of the list, an idle one. -/
def Env.apuTick (e : Env) : ApuTick := e.apu.headD ApuTick.idle

/-- `PpuStep()` (R275). -/
def ppuStep (s : State) : State :=
  { s with
    ppu := s.ppu.advance s.params.vblankClearDot s.env.ppuTick.shorten
    cart := s.env.ppuTick.onCart s.cart
    env := { s.env with ppu := s.env.ppu.tail } }

/-- A PPU step followed by its NMI sample (R263, R275). -/
def ppuStepSample (s : State) : State :=
  let t := ppuStep s
  nmiSample t.ppu.nmiOut t

/-- The three PPU steps of a frame unit (R275). -/
def ppuPhase (s : State) : State := ppuStepSample (ppuStepSample (ppuStepSample s))

/-- The APU with the levels its block gives its IRQ sources in this step (R292, R293). -/
def ApuTick.onApu (t : ApuTick) (u : Apu) : Apu :=
  { u with frameIrq := t.frameIrq.getD u.frameIrq, dmcIrq := t.dmcIrq.getD u.dmcIrq }

/-- A DMC sample fetch (R293): a read through the CPU decoder, the latch included, and the stall of `dmc_stall_cycles`. -/
def dmcFetch (a : Word) (s : State) : State :=
  let r := busRead a s
  (r.2.setApu (r.2.apu.afterSample a r.1)).addStall s.params.dmcStallCycles

/-- `ApuStep()` (R275, R292, R293). -/
def apuStep (s : State) : State :=
  let t := (s.setApu (s.env.apuTick.onApu s.apu)).setEnv { s.env with apu := s.env.apu.tail }
  match s.env.apuTick.dmcFetch with
  | some a => dmcFetch a t
  | none => t

/-- What follows the CPU step in a frame unit: three PPU steps with their samples, one APU step (R275). -/
def devicePhase (s : State) : State := apuStep (ppuPhase s)

end Sys2Proof.Machine
end

