-- ==== Sys2Proof/Machine/Step.lean ====
section
/-! DEFINITION. One step of the machine: `step_frame_unit()` (60_exceptions.md R275), one CPU cycle with its three PPU steps and
one APU step (log 5); and the host's `withFetchWord`. -/

namespace Sys2Proof.Machine

/-- `step_frame_unit()` (R275). A refusal or a fault of the CPU step ends it (R260). -/
def step (s : State) : Host.Outcome State Fault Refusal := andThen devicePhase (cpuStep s)

/-- The state with an instruction stored where the next step fetches it, so that the next step runs it (log 30). -/
def State.withFetchWord (s : State) (nbits w : Nat) : State := s.withFetchBytes (tableBytes nbits w)

end Sys2Proof.Machine
end

