-- ==== Sys2Proof/Machine/Construct.lean ====
section
/-! DEFINITION. Construction of a System from a cartridge image (20_memory.md R76, R101; 70_reset_and_hazards.md R320, R321). -/

namespace Sys2Proof.Machine

/-- The load errors (R321), after which no state exists. -/
inductive LoadError where
  /-- "Malformed magic". -/
  | malformedMagic
  /-- The image is shorter than its header declares. -/
  | truncatedData
  /-- A mapper number outside 0 to 4. -/
  | unsupportedMapper (n : Nat)
  /-- `prg_bank_count` is zero (R101). -/
  | noPrgBank
  deriving DecidableEq, Repr

/-- A byte of an image; a byte past its end counts as 0x00 (only a header too short, which is refused, is read so). -/
def imageByte (img : List Byte) (k : Nat) : Byte := img.getD k 0

/-- The mapper number of a header: `(byte7 & 0xF0) | (byte6 >> 4)` (R76). -/
def mapperNumber (img : List Byte) : Nat := ((imageByte img 7 &&& 0xF0) ||| (imageByte img 6 >>> 4)).toNat

/-- The mirroring bit of a header: byte 6 bit 0 (R76). -/
def imageMirroring (img : List Byte) : Mirroring := if (imageByte img 6).getLsbD 0 then .vertical else .horizontal

/-- Where the PRG data begins: after the header and the trainer, which is skipped (R76, R321). -/
def prgStart (img : List Byte) : Nat := 16 + if (imageByte img 6).getLsbD 2 then 512 else 0

/-- `prg_size` of a header. -/
def imagePrgSize (img : List Byte) : Nat := (imageByte img 4).toNat * 0x4000

/-- The size of the CHR data of an image. -/
def imageChrSize (img : List Byte) : Nat := (imageByte img 5).toNat * 0x2000

/-- The mapper chip of a number, with its power-on registers (R76, R96, R97, R98, R326). -/
def powerOnChip (mirroring : Mirroring) : Nat → Option Chip
  | 0 => some .nrom
  | 1 => some (.mmc1 (Mmc1.powerOn mirroring))
  | 2 => some (.uxrom 0)
  | 3 => some (.cnrom 0)
  | 4 => some (.mmc3 [])
  | _ => none

/-- The cartridge of an image, with the power-on content of its CHR RAM, which counts only when it has CHR RAM (R76, R101,
R321, R326). The four checks are made in the order R321 lists them (log 27). -/
def loadImage (img : List Byte) (chrRam : Memory) : Except LoadError Mapper :=
  if img.take 4 ≠ [0x4E, 0x45, 0x53, 0x1A] then .error .malformedMagic
  else if img.length < 16 ∨ img.length < prgStart img + imagePrgSize img + imageChrSize img then .error .truncatedData
  else
    match powerOnChip (imageMirroring img) (mapperNumber img) with
    | none => .error (.unsupportedMapper (mapperNumber img))
    | some chip =>
      if imageByte img 4 = 0 then .error .noPrgBank
      else .ok
        { chip := chip
          prgBanks := (imageByte img 4).toNat
          chrBanks := (imageByte img 5).toNat
          headerMirroring := imageMirroring img
          prgRom := Memory.ofBytes 0 ((img.drop (prgStart img)).take (imagePrgSize img))
          chr := if imageByte img 5 = 0 then chrRam
            else Memory.ofBytes 0 ((img.drop (prgStart img + imagePrgSize img)).take (imageChrSize img)) }

/-- Construction (R320): validate and split the image, build the mapper in its power-on state, then the rest. -/
def construct (params : Params) (regs : ResetRegs) (ram chrRam : Memory) (img : List Byte) : Except LoadError State :=
  match loadImage img chrRam with
  | .ok cart => .ok (State.powerOn params regs ram cart)
  | .error e => .error e

end Sys2Proof.Machine
end

