-- ==== Sys2Proof/Machine/HostOps.lean ====
section
/-! DEFINITION. What the host does between two frame units: the controller byte (20_memory.md R72, D44), snapshot and restore
(60_exceptions.md R276, 10_state.md R38, D31, D45). -/

namespace Sys2Proof.Machine

/-- `set_controller_state(b)` (R72). -/
def supplyController (b : Byte) (s : State) : State := s.setPad (s.pad.supply b)

/-- `snapshot()` (R276): a copy of every field of the System but the immutable ROM. -/
def State.snapshot (s : State) : Snapshot where
  cpu := s.cpu
  ram := s.ram
  pad := s.pad
  ppu := s.ppu
  apu := s.apu
  cart := s.cart.copyOut

/-- `restore(Snapshot)` (R276): every field written back; the ROM, the parameters, the device inputs and the slot stay. -/
def State.resume (s : State) (c : Snapshot) : State :=
  { s with cpu := c.cpu, ram := c.ram, pad := c.pad, ppu := c.ppu, apu := c.apu, cart := s.cart.copyIn c.cart }

/-- A save into the one slot, over what it held (R276). -/
def save (s : State) : State := s.setSlot (some s.snapshot)

/-- A restore from the slot, with whether it was accepted: before any save it is refused and changes nothing (R276). -/
def restore (s : State) : State × Bool :=
  match s.slot with
  | some c => (s.resume c, true)
  | none => (s, false)

/-- A move of the System: a frame unit, or a call of the host between two of them (D44, D45). -/
inductive Move where
  | frameUnit
  | supplyController (b : Byte)
  | save
  | restore
  deriving DecidableEq, Repr

/-- One move. -/
def move (m : Move) (s : State) : Result :=
  match m with
  | .frameUnit => step s
  | .supplyController b => .next (supplyController b s)
  | .save => .next (save s)
  | .restore => .next (restore s).1

end Sys2Proof.Machine
end

