-- ==== Sys2Proof/Safety.lean ====
section
/-! DEFINITION. What claims about the machine are stated in: power-on states, the invariant of every run, when a step fetches,
what a step may not touch, and the spec's notation for operands, flags and encodings. Nothing here is part of the machine. -/

namespace Sys2Proof.Machine

/-! ### Runs -/

/-- The step is an instruction boundary (10_state.md R31). -/
def State.AtBoundary (s : State) : Prop := s.cpu.stallRemaining = 0 ∧ s.cpu.cyclesRemaining = 0

/-- A boundary step takes no interrupt (60_exceptions.md R266). -/
def State.NoInterrupt (s : State) : Prop := s.cpu.nmiPending = false ∧ (s.irqLine = false ∨ s.cpu.p.i = true)

/-- The step has a next state: no undocumented opcode is fetched (R260). -/
def State.Safe (s : State) : Prop := ∃ t, step s = .next t

/-- Some byte is read: `n` bytes at PC in rising order, through the bus, PC past them (30_encoding.md R121). -/
def readBytes : Nat → State → List Byte × State
  | 0, s => ([], s)
  | n + 1, s =>
    let r := busRead s.cpu.pc s
    let t := readBytes n { r.2 with cpu := { r.2.cpu with pc := s.cpu.pc + 1 } }
    (r.1 :: t.1, t.2)

/-- The byte of internal RAM that an address below 0x2000 names (20_memory.md R55). -/
def State.ramAt (s : State) (a : Word) : Byte := s.ram.read (a.toNat % 2048)

/-- The stored byte that a fetch at an address reads, where it reads RAM or PRG ROM: a read of it has no effect but the latch
(R56). -/
def State.stored (s : State) (a : Word) : Option Byte :=
  if a.toNat < 0x2000 then some (s.ramAt a)
  else match s.cart.prgOffset a with
    | some k => some (s.cart.prgRom.read k)
    | none => none

/-! ### The invariant -/

/-- A mapper chip's registers are ones it can hold: an MMC1 shift register never loses its marker (R83, R86). -/
def chipOk : Chip → Bool
  | .mmc1 r => decide (r.shift ≠ 0)
  | _ => true

/-- A cartridge as construction makes it and every run keeps it: at least one PRG bank (R101), canonical memories of the
sizes of R76. -/
def Mapper.Valid (m : Mapper) : Prop :=
  1 ≤ m.prgBanks ∧ m.prgRom.wf = true ∧ m.prgRom.below m.prgSize = true ∧ m.chr.wf = true ∧
    m.chr.below m.chrSize = true ∧ chipOk m.chip = true

/-- "scanline in [0,261] and dot in [0,340]" (R280). -/
def Ppu.InRange (p : Ppu) : Prop := p.scanline ≤ 261 ∧ p.dot ≤ 340

/-- The vblank flag is set only from scanline 241 dot 1 to the pre-render reset point (R289). -/
def Ppu.VblankInWindow (clearDot : Nat) (p : Ppu) : Prop :=
  p.vblank = true →
    (p.scanline = 241 ∧ 1 ≤ p.dot) ∨ (242 ≤ p.scanline ∧ p.scanline ≤ 260) ∨ (p.scanline = 261 ∧ p.dot < clearDot)

/-- Internal RAM is a canonical memory of 2048 bytes (R55). -/
def RamValid (m : Memory) : Prop := m.wf = true ∧ m.below 2048 = true

/-- A saved system is one the cartridge could be in. -/
def Snapshot.Valid (clearDot : Nat) (c : Snapshot) : Prop :=
  RamValid c.ram ∧ Ppu.InRange c.ppu ∧ Ppu.VblankInWindow clearDot c.ppu ∧ c.cart.chrRam.wf = true ∧
    c.cart.chrRam.below 0x2000 = true ∧ chipOk c.cart.chip = true

/-- The invariant of every run. -/
def State.Inv (s : State) : Prop :=
  RamValid s.ram ∧ Mapper.Valid s.cart ∧ Ppu.InRange s.ppu ∧ Ppu.VblankInWindow s.params.vblankClearDot s.ppu ∧
    ∀ c, s.slot = some c → Snapshot.Valid s.params.vblankClearDot c

/-- A state right after construction, for any value of the open parameters of R7: any parameters in their ranges, any
`reset_regs`, any RAM, any valid cartridge with its chip at power-on (R326), any PPU with its NMI output at 0 (R328), any
device inputs. -/
def State.IsPowerOn (s : State) : Prop :=
  ∃ params regs ram cart ppu env, params.Valid ∧ RamValid ram ∧ Mapper.Valid cart ∧ Ppu.InRange ppu ∧
    Ppu.VblankInWindow params.vblankClearDot ppu ∧ ppu.nmiOut = false ∧
    (∃ n, powerOnChip cart.headerMirroring n = some cart.chip) ∧
    s = { State.powerOn params regs ram cart with ppu := ppu, env := env }

/-- What no step changes: the parameters, the ROM image and the snapshot slot. -/
def State.SameBoard (s t : State) : Prop :=
  t.params = s.params ∧ t.slot = s.slot ∧ t.cart.prgRom = s.cart.prgRom ∧ t.cart.prgBanks = s.cart.prgBanks ∧
    t.cart.chrBanks = s.cart.chrBanks ∧ t.cart.headerMirroring = s.cart.headerMirroring ∧
    (s.cart.chrIsRam = false → t.cart.chr = s.cart.chr)

/-- Two states hold the same System in the sense of a snapshot: every field but the parameters, the inputs and the slot
(60_exceptions.md R276). -/
def State.SameSystem (s t : State) : Prop :=
  t.cpu = s.cpu ∧ t.ram = s.ram ∧ t.pad = s.pad ∧ t.ppu = s.ppu ∧ t.apu = s.apu ∧ t.cart = s.cart

/-! ### The spec's notation -/

/-- The formats of 30_encoding.md R111. -/
inductive Mode where
  | imp | acc | imm | zp | zpx | zpy | abs | absx | absy | ind | indx | indy | rel
  deriving DecidableEq, Repr

/-- The format of an operand (R111). -/
def modeOf : Operand → Mode
  | .imp => .imp
  | .acc => .acc
  | .imm _ => .imm
  | .mem (.zp _) => .zp
  | .mem (.zpx _) => .zpx
  | .mem (.zpy _) => .zpy
  | .mem (.abs _) => .abs
  | .mem (.absx _) => .absx
  | .mem (.absy _) => .absy
  | .mem (.indx _) => .indx
  | .mem (.indy _) => .indy
  | .ind _ => .ind
  | .rel _ => .rel

/-- The "Encodings" line of an instruction's rule: its opcode, mode and cycle count are in the list. -/
def EncodedAs (i : Instr) (l : List (Byte × Mode × Nat)) : Prop := (i.opcode, modeOf i.operand, i.baseCycles) ∈ l

/-- `M` of the read class (40_addressing.md R133, R144): the operand of `o` in `s` is `v`, its penalty is `k` cycles (R145),
and reading it leaves `t`. -/
def OperandRead (o : Operand) (s : State) (v : Byte) (k : Nat) (t : State) : Prop :=
  match o with
  | .imm b => v = b ∧ k = 0 ∧ t = s
  | .mem m =>
    (v, t) = busRead (effective m s).addr (effective m s).state ∧ k = (if (effective m s).crossed then 1 else 0)
  | _ => False

/-- `NZ(v)` (00_scope.md R11), in numbers. -/
def NZ (p : Flags) (v : Byte) : Flags := { p with n := decide (128 ≤ v.toNat), z := decide (v.toNat = 0) }

/-- A bit as a number. -/
def bitNat (b : Bool) : Nat := if b then 1 else 0

/-- The status byte `N:V:1:b:D:I:Z:C` (10_state.md R27), in numbers. -/
def statusByte (p : Flags) (b : Bool) : Byte :=
  BitVec.ofNat 8 (128 * bitNat p.n + 64 * bitNat p.v + 32 + 16 * bitNat b + 8 * bitNat p.d + 4 * bitNat p.i +
    2 * bitNat p.z + bitNat p.c)

/-- The flags a pulled status byte gives: bits 7, 6, 3, 2, 1, 0, in numbers (R27). -/
def flagsOf (b : Byte) : Flags where
  n := decide (b.toNat / 128 % 2 = 1)
  v := decide (b.toNat / 64 % 2 = 1)
  d := decide (b.toNat / 8 % 2 = 1)
  i := decide (b.toNat / 4 % 2 = 1)
  z := decide (b.toNat / 2 % 2 = 1)
  c := decide (b.toNat % 2 = 1)

/-- The RAM index of the stack byte an SP names: `0x0100 | SP` (R24). -/
def stackIndex (sp : Byte) : Nat := 0x100 + sp.toNat

/-- `hi : lo` in numbers (R50). -/
def wordOf (hi lo : Byte) : Word := BitVec.ofNat 16 (hi.toNat * 256 + lo.toNat)

/-- `w[15:8]` in numbers. -/
def highOf (w : Word) : Byte := BitVec.ofNat 8 (w.toNat / 256)

/-- `w[7:0]` in numbers. -/
def lowOf (w : Word) : Byte := BitVec.ofNat 8 (w.toNat % 256)

/-- The state a branch leaves (45_control.md R220), in numbers: target `PCn` plus the signed offset modulo 2^16; 3 cycles, or
4 to another page, taken; 2 not taken. -/
def branchResult (taken : Bool) (d : Byte) (s : State) : State :=
  let target : Word := BitVec.ofInt 16 (s.cpu.pc.toNat + d.toInt)
  if taken then
    { s with cpu := { s.cpu with
        pc := target
        cyclesRemaining := if target.toNat / 256 = s.cpu.pc.toNat / 256 then 2 else 3 } }
  else { s with cpu := { s.cpu with cyclesRemaining := 1 } }

/-- The state after an interrupt or BRK pushed its frame, set I, and read its vector through the mapper (60_exceptions.md
R261, R267): three stack bytes, SP three lower, the last byte read on the bus, 7 cycles. -/
def entryResult (vector ret : Word) (b : Bool) (s : State) : State :=
  let sp := s.cpu.sp
  let status := statusByte s.cpu.p b
  let lo := s.cart.cpuRead vector status
  let hi := s.cart.cpuRead (vector + 1) lo
  { s with
    ram := ((s.ram.write (stackIndex sp) (highOf ret)).write (stackIndex (sp - 1)) (lowOf ret)).write
      (stackIndex (sp - 2)) status
    cpu := { s.cpu with
      sp := sp - 3
      p := { s.cpu.p with i := true }
      pc := wordOf hi lo
      openBus := hi
      cyclesRemaining := 6 } }

end Sys2Proof.Machine
end

