-- ==== Sys2Proof/Certificates/Slice0/Obligations.lean ====
section
/-! DEFINITION. The statements about the model, for the provers. Each docstring names the rule of spec/ it formalises. A state a
meaning gets is the one after the fetch, so its PC is `PCn`, the address of the next instruction (30_encoding.md R121). -/

open Sys2Proof Sys2Proof.Machine

/-! ### Encoding -/

/-- The words of every instruction decode to it, whatever follows (R110, R111, R112, R114, R115, R116). -/
def Obligations.DecodeOfEncodeIsTheInstruction : Prop :=
  ∀ (i : Instr) (rest : List Byte), decode (encode i ++ rest) = .ok (i, rest)

/-- Bytes that decode are the words of the instruction they decode to: no byte is dropped or ignored (R110, R112, R118). -/
def Obligations.DecodedBytesAreTheEncoding : Prop :=
  ∀ (bs : List Byte) (i : Instr) (rest : List Byte), decode bs = .ok (i, rest) → bs = encode i ++ rest

/-- An instruction is 1, 2 or 3 bytes long, as its mode says, and the opcode alone fixes the length (R110, R116). -/
def Obligations.LengthIsFixedByTheOpcode : Prop :=
  ∀ i : Instr, (encode i).length = i.operand.length ∧ encodingLength i.opcode = some i.operand.length ∧
    1 ≤ (encode i).length ∧ (encode i).length ≤ 3

/-- The 105 bytes R117 lists are exactly the undocumented ones. -/
def Obligations.UndocumentedOpcodesAreTheListed : Prop :=
  ∀ (op : Byte) (rest : List Byte), (decode (op :: rest) = .error (.undocumentedOpcode op)) ↔ op ∈ ([
    0x02, 0x03, 0x04, 0x07, 0x0B, 0x0C, 0x0F, 0x12, 0x13, 0x14, 0x17, 0x1A, 0x1B, 0x1C, 0x1F, 0x22, 0x23, 0x27, 0x2B,
    0x2F, 0x32, 0x33, 0x34, 0x37, 0x3A, 0x3B, 0x3C, 0x3F, 0x42, 0x43, 0x44, 0x47, 0x4B, 0x4F, 0x52, 0x53, 0x54, 0x57,
    0x5A, 0x5B, 0x5C, 0x5F, 0x62, 0x63, 0x64, 0x67, 0x6B, 0x6F, 0x72, 0x73, 0x74, 0x77, 0x7A, 0x7B, 0x7C, 0x7F, 0x80,
    0x82, 0x83, 0x87, 0x89, 0x8B, 0x8F, 0x92, 0x93, 0x97, 0x9B, 0x9C, 0x9E, 0x9F, 0xA3, 0xA7, 0xAB, 0xAF, 0xB2, 0xB3,
    0xB7, 0xBB, 0xBF, 0xC2, 0xC3, 0xC7, 0xCB, 0xCF, 0xD2, 0xD3, 0xD4, 0xD7, 0xDA, 0xDB, 0xDC, 0xDF, 0xE2, 0xE3, 0xE7,
    0xEB, 0xEF, 0xF2, 0xF3, 0xF4, 0xF7, 0xFA, 0xFB, 0xFC, 0xFF] : List Byte)

/-- Words written out bit by bit from the encodings of the spec decode to the instructions they stand for, one of each family
(R111, R115). A sanity statement. -/
def Obligations.SpelledWordsDecode : Prop :=
  decode [0b10101001#8, 0b10000000#8] = .ok (.ldaImm 0x80, []) ∧
    decode [0b10001101#8, 0b00000000#8, 0b00000010#8] = .ok (.staAbs 0x0200, []) ∧
    decode [0b10111010#8] = .ok (.tsx, []) ∧
    decode [0b01110001#8, 0b00100000#8] = .ok (.adcIndy 0x20, []) ∧
    decode [0b01101010#8] = .ok (.rorAcc, []) ∧
    decode [0b01101100#8, 0b11111111#8, 0b00000010#8] = .ok (.jmpInd 0x02FF, []) ∧
    decode [0b11010000#8, 0b11111001#8] = .ok (.bne 0xF9, []) ∧
    decode [0b01000000#8] = .ok (.rti, [])

/-! ### Fetch and step -/

/-- A step at an instruction boundary that takes no interrupt runs the instruction its bytes decode to: they are read through
the bus in rising order, PC moves past them, `exec` runs it, the parity toggles, and the device steps of the frame unit
follow (R31, R121, R273, R275). -/
def Obligations.StepRunsTheDecodedInstruction : Prop :=
  ∀ (s t : State) (bs : List Byte) (i : Instr),
    s.AtBoundary → s.NoInterrupt → readBytes i.operand.length s = (bs, t) → decode bs = .ok (i, []) →
      cpuStep s = andThen State.toggleOdd (exec i t) ∧
      step s = andThen (fun u => devicePhase u.toggleOdd) (exec i t)

/-- An instruction whose bytes are stored in RAM or PRG ROM from PC on is fetched: PC ends past its last byte, modulo 2^16, the
latch holds that byte, and nothing else changes (R25, R54, R121). -/
def Obligations.FetchReadsTheStoredInstruction : Prop :=
  ∀ (s : State) (i : Instr),
    (∀ j : Nat, j < (encode i).length → s.stored (s.cpu.pc + BitVec.ofNat 16 j) = (encode i)[j]?) →
      fetch s = .instr i { s with cpu := { s.cpu with
        pc := s.cpu.pc + BitVec.ofNat 16 (encode i).length
        openBus := (encode i).getLastD 0 } }

/-- A stall step only decrements `stall_remaining` and comes before the countdown; "A step with `cycles_remaining` > 0 only
decrements it"; both toggle the parity (R31, R34, R35, R273, R274; the boundary execution is the spec's decision D3). -/
def Obligations.StallAndCountdownStepsOnlyCount : Prop :=
  ∀ s : State,
    (s.cpu.stallRemaining ≠ 0 → cpuStep s = .next { s with cpu := { s.cpu with
      stallRemaining := s.cpu.stallRemaining - 1, oddCycle := !s.cpu.oddCycle } }) ∧
    (s.cpu.stallRemaining = 0 → s.cpu.cyclesRemaining ≠ 0 → cpuStep s = .next { s with cpu := { s.cpu with
      cyclesRemaining := s.cpu.cyclesRemaining - 1, oddCycle := !s.cpu.oddCycle } })

/-- R117, R260: a boundary step that fetches an undocumented opcode is refused by name with the opcode's address; when the
parameter says `Stuck`, the twelve halting bytes are a stuck state and the others are still refused. -/
def Obligations.UndocumentedOpcodeEndsTheStep : Prop :=
  ∀ (s : State) (op : Byte), s.AtBoundary → s.NoInterrupt → (busRead s.cpu.pc s).1 = op → decodeOpcode op = none →
    (s.params.unofficial = .refuse → step s = .refused (.undocumentedOpcode op s.cpu.pc)) ∧
    (s.params.unofficial = .stuck →
      (op ∈ ([0x02, 0x12, 0x22, 0x32, 0x42, 0x52, 0x62, 0x72, 0x92, 0xB2, 0xD2, 0xF2] : List Byte) →
        step s = .fault (.jam op s.cpu.pc)) ∧
      (op ∉ ([0x02, 0x12, 0x22, 0x32, 0x42, 0x52, 0x62, 0x72, 0x92, 0xB2, 0xD2, 0xF2] : List Byte) →
        step s = .refused (.undocumentedOpcode op s.cpu.pc)))

/-- "Once running, the core is expected to never fail": a step has a next state unless it is a boundary that takes no
interrupt and fetches an undocumented opcode (R53, R260, R262). -/
def Obligations.OnlyUndocumentedOpcodesStopTheMachine : Prop :=
  ∀ s : State, s.Safe ∨ (s.AtBoundary ∧ s.NoInterrupt ∧ decodeOpcode (busRead s.cpu.pc s).1 = none)

/-! ### Instructions: result, flags, cycles and everything else unchanged, for every form -/

/-- LDA, LDX, LDY (R150 to R152): the register takes the operand, N and Z are written, nothing else but the cycle counter
differs from the state the operand read left. -/
def Obligations.LoadsPutTheOperandInTheRegister : Prop :=
  ∀ (i : Instr) (s : State),
    (i.mnemonic = .lda →
      EncodedAs i [(0xA9, .imm, 2), (0xA5, .zp, 3), (0xB5, .zpx, 4), (0xAD, .abs, 4), (0xBD, .absx, 4),
        (0xB9, .absy, 4), (0xA1, .indx, 6), (0xB1, .indy, 5)] ∧
      ∃ m k t, OperandRead i.operand s m k t ∧ exec i s = .next { t with cpu := { t.cpu with
        a := m, p := NZ t.cpu.p m, cyclesRemaining := BitVec.ofNat 8 (i.baseCycles + k - 1) } }) ∧
    (i.mnemonic = .ldx →
      EncodedAs i [(0xA2, .imm, 2), (0xA6, .zp, 3), (0xB6, .zpy, 4), (0xAE, .abs, 4), (0xBE, .absy, 4)] ∧
      ∃ m k t, OperandRead i.operand s m k t ∧ exec i s = .next { t with cpu := { t.cpu with
        x := m, p := NZ t.cpu.p m, cyclesRemaining := BitVec.ofNat 8 (i.baseCycles + k - 1) } }) ∧
    (i.mnemonic = .ldy →
      EncodedAs i [(0xA0, .imm, 2), (0xA4, .zp, 3), (0xB4, .zpx, 4), (0xAC, .abs, 4), (0xBC, .absx, 4)] ∧
      ∃ m k t, OperandRead i.operand s m k t ∧ exec i s = .next { t with cpu := { t.cpu with
        y := m, p := NZ t.cpu.p m, cyclesRemaining := BitVec.ofNat 8 (i.baseCycles + k - 1) } })

/-- STA, STX, STY (R153 to R155): exactly one write of the register to the effective address, no read of it, no flag, a fixed
cycle count. -/
def Obligations.StoresWriteTheRegister : Prop :=
  ∀ (i : Instr) (s : State),
    (i.mnemonic = .sta →
      EncodedAs i [(0x85, .zp, 3), (0x95, .zpx, 4), (0x8D, .abs, 4), (0x9D, .absx, 5), (0x99, .absy, 5),
        (0x81, .indx, 6), (0x91, .indy, 6)] ∧
      ∃ m, i.operand = .mem m ∧ exec i s =
        .next ((busWrite (effective m s).addr s.cpu.a (effective m s).state).setCycles i.baseCycles)) ∧
    (i.mnemonic = .stx →
      EncodedAs i [(0x86, .zp, 3), (0x96, .zpy, 4), (0x8E, .abs, 4)] ∧
      ∃ m, i.operand = .mem m ∧ exec i s =
        .next ((busWrite (effective m s).addr s.cpu.x (effective m s).state).setCycles i.baseCycles)) ∧
    (i.mnemonic = .sty →
      EncodedAs i [(0x84, .zp, 3), (0x94, .zpx, 4), (0x8C, .abs, 4)] ∧
      ∃ m, i.operand = .mem m ∧ exec i s =
        .next ((busWrite (effective m s).addr s.cpu.y (effective m s).state).setCycles i.baseCycles))

/-- TAX, TAY, TSX, TXA, TXS, TYA (R160 to R165): TXS writes no flag, the others N and Z; 2 cycles. -/
def Obligations.TransfersCopyRegisters : Prop :=
  ∀ s : State,
    EncodedAs .tax [(0xAA, .imp, 2)] ∧ EncodedAs .tay [(0xA8, .imp, 2)] ∧ EncodedAs .tsx [(0xBA, .imp, 2)] ∧
    EncodedAs .txa [(0x8A, .imp, 2)] ∧ EncodedAs .txs [(0x9A, .imp, 2)] ∧ EncodedAs .tya [(0x98, .imp, 2)] ∧
    exec .tax s = .next { s with cpu := { s.cpu with x := s.cpu.a, p := NZ s.cpu.p s.cpu.a, cyclesRemaining := 1 } } ∧
    exec .tay s = .next { s with cpu := { s.cpu with y := s.cpu.a, p := NZ s.cpu.p s.cpu.a, cyclesRemaining := 1 } } ∧
    exec .tsx s = .next { s with cpu := { s.cpu with x := s.cpu.sp, p := NZ s.cpu.p s.cpu.sp, cyclesRemaining := 1 } } ∧
    exec .txa s = .next { s with cpu := { s.cpu with a := s.cpu.x, p := NZ s.cpu.p s.cpu.x, cyclesRemaining := 1 } } ∧
    exec .txs s = .next { s with cpu := { s.cpu with sp := s.cpu.x, cyclesRemaining := 1 } } ∧
    exec .tya s = .next { s with cpu := { s.cpu with a := s.cpu.y, p := NZ s.cpu.p s.cpu.y, cyclesRemaining := 1 } }

/-- PHA and PHP (R166, R167): the byte goes to 0x0100 | SP, SP moves down modulo 2^8; PHP's byte has bits 5 and 4 set. PLA and
PLP (R168, R169): SP moves up modulo 2^8 and the byte at 0x0100 | SP is read; PLP takes the six flags from bits 7, 6, 3, 2, 1,
0. -/
def Obligations.StackInstructionsPushAndPull : Prop :=
  ∀ s : State,
    let b := s.ram.read (stackIndex (s.cpu.sp + 1))
    EncodedAs .pha [(0x48, .imp, 3)] ∧ EncodedAs .php [(0x08, .imp, 3)] ∧
    EncodedAs .pla [(0x68, .imp, 4)] ∧ EncodedAs .plp [(0x28, .imp, 4)] ∧
    exec .pha s = .next { s with
      ram := s.ram.write (stackIndex s.cpu.sp) s.cpu.a
      cpu := { s.cpu with sp := s.cpu.sp - 1, openBus := s.cpu.a, cyclesRemaining := 2 } } ∧
    exec .php s = .next { s with
      ram := s.ram.write (stackIndex s.cpu.sp) (statusByte s.cpu.p true)
      cpu := { s.cpu with sp := s.cpu.sp - 1, openBus := statusByte s.cpu.p true, cyclesRemaining := 2 } } ∧
    exec .pla s = .next { s with cpu := { s.cpu with
      a := b, p := NZ s.cpu.p b, sp := s.cpu.sp + 1, openBus := b, cyclesRemaining := 3 } } ∧
    exec .plp s = .next { s with cpu := { s.cpu with
      p := flagsOf b, sp := s.cpu.sp + 1, openBus := b, cyclesRemaining := 3 } }

/-- ADC (R181): the sum of A, M and C as a number up to 511; C is its bit 8, V the overflow bit of the rule's formula, D is
ignored (R180). -/
def Obligations.AdcAddsWithCarry : Prop :=
  ∀ (i : Instr) (s : State), i.mnemonic = .adc →
    EncodedAs i [(0x69, .imm, 2), (0x65, .zp, 3), (0x75, .zpx, 4), (0x6D, .abs, 4), (0x7D, .absx, 4),
      (0x79, .absy, 4), (0x61, .indx, 6), (0x71, .indy, 5)] ∧
    ∃ m k t, OperandRead i.operand s m k t ∧
      let sum := s.cpu.a.toNat + m.toNat + bitNat s.cpu.p.c
      let r : Byte := BitVec.ofNat 8 sum
      exec i s = .next { t with cpu := { t.cpu with
        a := r
        p := { NZ t.cpu.p r with
          c := decide (256 ≤ sum)
          v := decide (128 ≤ ((s.cpu.a ^^^ r) &&& (m ^^^ r)).toNat) }
        cyclesRemaining := BitVec.ofNat 8 (i.baseCycles + k - 1) } }

/-- SBC (R182): A minus M minus the borrow; C is 1 exactly when A >= M + (1 - C) as unsigned integers; V is the overflow bit of
the rule's formula; D is ignored (R180). -/
def Obligations.SbcSubtractsWithBorrow : Prop :=
  ∀ (i : Instr) (s : State), i.mnemonic = .sbc →
    EncodedAs i [(0xE9, .imm, 2), (0xE5, .zp, 3), (0xF5, .zpx, 4), (0xED, .abs, 4), (0xFD, .absx, 4),
      (0xF9, .absy, 4), (0xE1, .indx, 6), (0xF1, .indy, 5)] ∧
    ∃ m k t, OperandRead i.operand s m k t ∧
      let borrow := 1 - bitNat s.cpu.p.c
      let r : Byte := BitVec.ofNat 8 (s.cpu.a.toNat + 256 - m.toNat - borrow)
      exec i s = .next { t with cpu := { t.cpu with
        a := r
        p := { NZ t.cpu.p r with
          c := decide (m.toNat + borrow ≤ s.cpu.a.toNat)
          v := decide (128 ≤ ((s.cpu.a ^^^ m) &&& (s.cpu.a ^^^ r)).toNat) }
        cyclesRemaining := BitVec.ofNat 8 (i.baseCycles + k - 1) } }

/-- R180: the V of ADC and SBC is the two's-complement signed overflow, C the unsigned carry out or the inverse of the unsigned
borrow, and neither depends on D. -/
def Obligations.OverflowIsSignedAndDecimalIsIgnored : Prop :=
  ∀ (p : Flags) (a m : Byte),
    let sum := a.toInt + m.toInt + bitNat p.c
    let diff := a.toInt - m.toInt - (1 - bitNat p.c : Int)
    ((p.adc a m).2.v = decide (sum < -128 ∨ 127 < sum)) ∧
    ((p.sbc a m).2.v = decide (diff < -128 ∨ 127 < diff)) ∧
    ((p.adc a m).2.c = decide (256 ≤ a.toNat + m.toNat + bitNat p.c)) ∧
    ((p.sbc a m).2.c = decide (m.toNat + (1 - bitNat p.c) ≤ a.toNat)) ∧
    (∀ d : Bool, ({ p with d := d }.adc a m).1 = (p.adc a m).1 ∧
      ({ p with d := d }.adc a m).2 = { (p.adc a m).2 with d := d } ∧
      ({ p with d := d }.sbc a m).1 = (p.sbc a m).1 ∧
      ({ p with d := d }.sbc a m).2 = { (p.sbc a m).2 with d := d })

/-- AND, ORA, EOR (R183 to R185): A takes the bitwise result, N and Z are written. -/
def Obligations.LogicInstructionsCombineWithA : Prop :=
  ∀ (i : Instr) (s : State),
    (i.mnemonic = .and →
      EncodedAs i [(0x29, .imm, 2), (0x25, .zp, 3), (0x35, .zpx, 4), (0x2D, .abs, 4), (0x3D, .absx, 4),
        (0x39, .absy, 4), (0x21, .indx, 6), (0x31, .indy, 5)] ∧
      ∃ m k t, OperandRead i.operand s m k t ∧ exec i s = .next { t with cpu := { t.cpu with
        a := s.cpu.a &&& m, p := NZ t.cpu.p (s.cpu.a &&& m)
        cyclesRemaining := BitVec.ofNat 8 (i.baseCycles + k - 1) } }) ∧
    (i.mnemonic = .ora →
      EncodedAs i [(0x09, .imm, 2), (0x05, .zp, 3), (0x15, .zpx, 4), (0x0D, .abs, 4), (0x1D, .absx, 4),
        (0x19, .absy, 4), (0x01, .indx, 6), (0x11, .indy, 5)] ∧
      ∃ m k t, OperandRead i.operand s m k t ∧ exec i s = .next { t with cpu := { t.cpu with
        a := s.cpu.a ||| m, p := NZ t.cpu.p (s.cpu.a ||| m)
        cyclesRemaining := BitVec.ofNat 8 (i.baseCycles + k - 1) } }) ∧
    (i.mnemonic = .eor →
      EncodedAs i [(0x49, .imm, 2), (0x45, .zp, 3), (0x55, .zpx, 4), (0x4D, .abs, 4), (0x5D, .absx, 4),
        (0x59, .absy, 4), (0x41, .indx, 6), (0x51, .indy, 5)] ∧
      ∃ m k t, OperandRead i.operand s m k t ∧ exec i s = .next { t with cpu := { t.cpu with
        a := s.cpu.a ^^^ m, p := NZ t.cpu.p (s.cpu.a ^^^ m)
        cyclesRemaining := BitVec.ofNat 8 (i.baseCycles + k - 1) } })

/-- BIT (R186): Z from A and M, N and V from bits 7 and 6 of M; A is not written. -/
def Obligations.BitTestsTheOperand : Prop :=
  ∀ (i : Instr) (s : State), i.mnemonic = .bit →
    EncodedAs i [(0x24, .zp, 3), (0x2C, .abs, 4)] ∧
    ∃ m k t, OperandRead i.operand s m k t ∧ exec i s = .next { t with cpu := { t.cpu with
      p := { t.cpu.p with
        z := decide ((s.cpu.a &&& m).toNat = 0)
        n := decide (128 ≤ m.toNat)
        v := decide (64 ≤ m.toNat % 128) }
      cyclesRemaining := BitVec.ofNat 8 (i.baseCycles + k - 1) } }

/-- CMP, CPX, CPY (R187 to R189): C is the unsigned >=, Z equality, N bit 7 of the difference modulo 2^8; V and the registers
are unchanged. -/
def Obligations.ComparesWriteNZC : Prop :=
  ∀ (i : Instr) (s : State),
    let after (r m : Byte) (k : Nat) (t : State) : State := { t with cpu := { t.cpu with
      p := { t.cpu.p with
        c := decide (m.toNat ≤ r.toNat)
        z := decide (m.toNat = r.toNat)
        n := decide (128 ≤ (r.toNat + 256 - m.toNat) % 256) }
      cyclesRemaining := BitVec.ofNat 8 (i.baseCycles + k - 1) } }
    (i.mnemonic = .cmp →
      EncodedAs i [(0xC9, .imm, 2), (0xC5, .zp, 3), (0xD5, .zpx, 4), (0xCD, .abs, 4), (0xDD, .absx, 4),
        (0xD9, .absy, 4), (0xC1, .indx, 6), (0xD1, .indy, 5)] ∧
      ∃ m k t, OperandRead i.operand s m k t ∧ exec i s = .next (after s.cpu.a m k t)) ∧
    (i.mnemonic = .cpx →
      EncodedAs i [(0xE0, .imm, 2), (0xE4, .zp, 3), (0xEC, .abs, 4)] ∧
      ∃ m k t, OperandRead i.operand s m k t ∧ exec i s = .next (after s.cpu.x m k t)) ∧
    (i.mnemonic = .cpy →
      EncodedAs i [(0xC0, .imm, 2), (0xC4, .zp, 3), (0xCC, .abs, 4)] ∧
      ∃ m k t, OperandRead i.operand s m k t ∧ exec i s = .next (after s.cpu.y m k t))

/-- INC and DEC (R200, R203): one read, one write of the byte plus or minus 1 modulo 2^8, N and Z, a fixed cycle count. -/
def Obligations.IncDecModifyMemory : Prop :=
  ∀ (i : Instr) (s : State),
    let after (r : Byte) (e : Effective) (u : State) : State :=
      ((busWrite e.addr r u).setP (NZ s.cpu.p r)).setCycles i.baseCycles
    (i.mnemonic = .inc →
      EncodedAs i [(0xE6, .zp, 5), (0xF6, .zpx, 6), (0xEE, .abs, 6), (0xFE, .absx, 7)] ∧
      ∃ m v u, i.operand = .mem m ∧ busRead (effective m s).addr (effective m s).state = (v, u) ∧
        exec i s = .next (after (BitVec.ofNat 8 (v.toNat + 1)) (effective m s) u)) ∧
    (i.mnemonic = .dec →
      EncodedAs i [(0xC6, .zp, 5), (0xD6, .zpx, 6), (0xCE, .abs, 6), (0xDE, .absx, 7)] ∧
      ∃ m v u, i.operand = .mem m ∧ busRead (effective m s).addr (effective m s).state = (v, u) ∧
        exec i s = .next (after (BitVec.ofNat 8 (v.toNat + 255)) (effective m s) u))

/-- INX, INY, DEX, DEY (R201, R202, R204, R205): the register plus or minus 1 modulo 2^8, N and Z. -/
def Obligations.IndexRegistersCount : Prop :=
  ∀ s : State,
    EncodedAs .inx [(0xE8, .imp, 2)] ∧ EncodedAs .iny [(0xC8, .imp, 2)] ∧
    EncodedAs .dex [(0xCA, .imp, 2)] ∧ EncodedAs .dey [(0x88, .imp, 2)] ∧
    (let r : Byte := BitVec.ofNat 8 (s.cpu.x.toNat + 1)
     exec .inx s = .next { s with cpu := { s.cpu with x := r, p := NZ s.cpu.p r, cyclesRemaining := 1 } }) ∧
    (let r : Byte := BitVec.ofNat 8 (s.cpu.y.toNat + 1)
     exec .iny s = .next { s with cpu := { s.cpu with y := r, p := NZ s.cpu.p r, cyclesRemaining := 1 } }) ∧
    (let r : Byte := BitVec.ofNat 8 (s.cpu.x.toNat + 255)
     exec .dex s = .next { s with cpu := { s.cpu with x := r, p := NZ s.cpu.p r, cyclesRemaining := 1 } }) ∧
    (let r : Byte := BitVec.ofNat 8 (s.cpu.y.toNat + 255)
     exec .dey s = .next { s with cpu := { s.cpu with y := r, p := NZ s.cpu.p r, cyclesRemaining := 1 } })

/-- ASL, LSR, ROL, ROR (R206 to R209), on A and on memory: the shifted byte, C the bit shifted out, the old C in for the
rotates, N and Z of the result. -/
def Obligations.ShiftsAndRotates : Prop :=
  ∀ (i : Instr) (s : State),
    let c := bitNat s.cpu.p.c
    let done (f : Nat → Nat) (out : Nat → Bool) : Prop :=
      (i.operand = .acc ∧
        let r : Byte := BitVec.ofNat 8 (f s.cpu.a.toNat)
        exec i s = .next { s with cpu := { s.cpu with
          a := r, p := { NZ s.cpu.p r with c := out s.cpu.a.toNat }, cyclesRemaining := 1 } }) ∨
      (∃ m v u, i.operand = .mem m ∧ busRead (effective m s).addr (effective m s).state = (v, u) ∧
        let r : Byte := BitVec.ofNat 8 (f v.toNat)
        exec i s = .next (((busWrite (effective m s).addr r u).setP
          { NZ s.cpu.p r with c := out v.toNat }).setCycles i.baseCycles))
    (i.mnemonic = .asl →
      EncodedAs i [(0x0A, .acc, 2), (0x06, .zp, 5), (0x16, .zpx, 6), (0x0E, .abs, 6), (0x1E, .absx, 7)] ∧
      done (fun v => v * 2) (fun v => decide (128 ≤ v))) ∧
    (i.mnemonic = .lsr →
      EncodedAs i [(0x4A, .acc, 2), (0x46, .zp, 5), (0x56, .zpx, 6), (0x4E, .abs, 6), (0x5E, .absx, 7)] ∧
      done (fun v => v / 2) (fun v => decide (v % 2 = 1))) ∧
    (i.mnemonic = .rol →
      EncodedAs i [(0x2A, .acc, 2), (0x26, .zp, 5), (0x36, .zpx, 6), (0x2E, .abs, 6), (0x3E, .absx, 7)] ∧
      done (fun v => v * 2 + c) (fun v => decide (128 ≤ v))) ∧
    (i.mnemonic = .ror →
      EncodedAs i [(0x6A, .acc, 2), (0x66, .zp, 5), (0x76, .zpx, 6), (0x6E, .abs, 6), (0x7E, .absx, 7)] ∧
      done (fun v => c * 128 + v / 2) (fun v => decide (v % 2 = 1)))

/-- The eight branches (R220 to R228): the flag each tests, the target, the cycle counts; no flag is written. -/
def Obligations.BranchesTestTheirFlag : Prop :=
  ∀ (d : Byte) (s : State),
    EncodedAs (.bcc d) [(0x90, .rel, 2)] ∧ EncodedAs (.bcs d) [(0xB0, .rel, 2)] ∧
    EncodedAs (.beq d) [(0xF0, .rel, 2)] ∧ EncodedAs (.bmi d) [(0x30, .rel, 2)] ∧
    EncodedAs (.bne d) [(0xD0, .rel, 2)] ∧ EncodedAs (.bpl d) [(0x10, .rel, 2)] ∧
    EncodedAs (.bvc d) [(0x50, .rel, 2)] ∧ EncodedAs (.bvs d) [(0x70, .rel, 2)] ∧
    exec (.bcc d) s = .next (branchResult (!s.cpu.p.c) d s) ∧ exec (.bcs d) s = .next (branchResult s.cpu.p.c d s) ∧
    exec (.beq d) s = .next (branchResult s.cpu.p.z d s) ∧ exec (.bmi d) s = .next (branchResult s.cpu.p.n d s) ∧
    exec (.bne d) s = .next (branchResult (!s.cpu.p.z) d s) ∧ exec (.bpl d) s = .next (branchResult (!s.cpu.p.n) d s) ∧
    exec (.bvc d) s = .next (branchResult (!s.cpu.p.v) d s) ∧ exec (.bvs d) s = .next (branchResult s.cpu.p.v d s)

/-- JMP (R229, R140): PC takes the operand, or the word at the pointer, whose high byte comes from the same page when the
parameter says so; no flag is written. -/
def Obligations.JumpsLoadPc : Prop :=
  ∀ (w : Word) (s : State),
    EncodedAs (.jmpAbs w) [(0x4C, .abs, 3)] ∧ EncodedAs (.jmpInd w) [(0x6C, .ind, 5)] ∧
    exec (.jmpAbs w) s = .next { s with cpu := { s.cpu with pc := w, cyclesRemaining := 2 } } ∧
    (let hiAddr : Word :=
       if s.params.jmpIndirectPageWrap then BitVec.ofNat 16 (w.toNat / 256 * 256 + (w.toNat + 1) % 256) else w + 1
     let lo := busRead w s
     let hi := busRead hiAddr lo.2
     exec (.jmpInd w) s = .next { hi.2 with cpu := { hi.2.cpu with pc := wordOf hi.1 lo.1, cyclesRemaining := 4 } })

/-- JSR (R230) pushes `PCn - 1`, the high byte first and to the higher address, and jumps; RTS (R231) pulls the low byte, then
the high byte, and adds 1 modulo 2^16; no flag is written. -/
def Obligations.JsrAndRtsLinkThroughTheStack : Prop :=
  ∀ (w : Word) (s : State),
    let ret := s.cpu.pc - 1
    let lo := s.ram.read (stackIndex (s.cpu.sp + 1))
    let hi := s.ram.read (stackIndex (s.cpu.sp + 2))
    EncodedAs (.jsr w) [(0x20, .abs, 6)] ∧ EncodedAs .rts [(0x60, .imp, 6)] ∧
    exec (.jsr w) s = .next { s with
      ram := (s.ram.write (stackIndex s.cpu.sp) (highOf ret)).write (stackIndex (s.cpu.sp - 1)) (lowOf ret)
      cpu := { s.cpu with sp := s.cpu.sp - 2, pc := w, openBus := lowOf ret, cyclesRemaining := 5 } } ∧
    exec .rts s = .next { s with cpu := { s.cpu with
      sp := s.cpu.sp + 2, pc := wordOf hi lo + 1, openBus := hi, cyclesRemaining := 5 } }

/-- CLC, CLD, CLI, CLV, SEC, SED, SEI (R240 to R246) write the one flag and nothing else; NOP (R249) does nothing; 2 cycles. -/
def Obligations.FlagInstructionsAndNop : Prop :=
  ∀ s : State,
    EncodedAs .clc [(0x18, .imp, 2)] ∧ EncodedAs .cld [(0xD8, .imp, 2)] ∧ EncodedAs .cli [(0x58, .imp, 2)] ∧
    EncodedAs .clv [(0xB8, .imp, 2)] ∧ EncodedAs .sec [(0x38, .imp, 2)] ∧ EncodedAs .sed [(0xF8, .imp, 2)] ∧
    EncodedAs .sei [(0x78, .imp, 2)] ∧ EncodedAs .nop [(0xEA, .imp, 2)] ∧
    exec .clc s = .next { s with cpu := { s.cpu with p := { s.cpu.p with c := false }, cyclesRemaining := 1 } } ∧
    exec .cld s = .next { s with cpu := { s.cpu with p := { s.cpu.p with d := false }, cyclesRemaining := 1 } } ∧
    exec .cli s = .next { s with cpu := { s.cpu with p := { s.cpu.p with i := false }, cyclesRemaining := 1 } } ∧
    exec .clv s = .next { s with cpu := { s.cpu with p := { s.cpu.p with v := false }, cyclesRemaining := 1 } } ∧
    exec .sec s = .next { s with cpu := { s.cpu with p := { s.cpu.p with c := true }, cyclesRemaining := 1 } } ∧
    exec .sed s = .next { s with cpu := { s.cpu with p := { s.cpu.p with d := true }, cyclesRemaining := 1 } } ∧
    exec .sei s = .next { s with cpu := { s.cpu with p := { s.cpu.p with i := true }, cyclesRemaining := 1 } } ∧
    exec .nop s = .next { s with cpu := { s.cpu with cyclesRemaining := 1 } }

/-- BRK (R247): the frame holds the opcode's address + 2 and the status byte with B = 1; I is set, D is not; PC comes from
0xFFFE; whatever I holds. -/
def Obligations.BrkTakesTheTrap : Prop :=
  ∀ s : State, EncodedAs .brk [(0x00, .imp, 7)] ∧
    exec .brk s = .next (entryResult 0xFFFE (s.cpu.pc + 1) true s)

/-- RTI (R248): the six flags from the pulled byte, then PC, low byte first, with no + 1. -/
def Obligations.RtiReturns : Prop :=
  ∀ s : State,
    let b := s.ram.read (stackIndex (s.cpu.sp + 1))
    let lo := s.ram.read (stackIndex (s.cpu.sp + 2))
    let hi := s.ram.read (stackIndex (s.cpu.sp + 3))
    EncodedAs .rti [(0x40, .imp, 6)] ∧
    exec .rti s = .next { s with cpu := { s.cpu with
      p := flagsOf b, sp := s.cpu.sp + 3, pc := wordOf hi lo, openBus := hi, cyclesRemaining := 5 } }

/-! ### Frames -/

/-- The instructions that write no memory: every byte of RAM, the cartridge, the parameters and all device state that no read
changes (R56) are unchanged; of the CPU only A, X, Y, SP, PC, the flags, the cycle counter and the latch may change, and each
mnemonic changes only its own registers (R21 to R25); the flags are FlagsHaveTheirWriters's. -/
def Obligations.NonStoringInstructionsLeaveMemory : Prop :=
  ∀ (i : Instr) (s t : State), exec i s = .next t →
    i.mnemonic ∉ ([.sta, .stx, .sty, .inc, .dec, .pha, .php, .jsr, .brk] : List Mnemonic) →
    ¬ (i.mnemonic ∈ ([.asl, .lsr, .rol, .ror] : List Mnemonic) ∧ i.operand ≠ .acc) →
      (∀ a : Word, t.ramAt a = s.ramAt a) ∧ t.cart = s.cart ∧ t.params = s.params ∧ t.slot = s.slot ∧
      t.env.ppu = s.env.ppu ∧ t.env.apu = s.env.apu ∧ t.pad.byte = s.pad.byte ∧ t.pad.strobe = s.pad.strobe ∧
      t.ppu.ctrl = s.ppu.ctrl ∧ t.ppu.scanline = s.ppu.scanline ∧ t.ppu.dot = s.ppu.dot ∧ t.apu.dmcIrq = s.apu.dmcIrq ∧
      t.cpu.nmiPending = s.cpu.nmiPending ∧ t.cpu.nmiLinePrev = s.cpu.nmiLinePrev ∧
      t.cpu.stallRemaining = s.cpu.stallRemaining ∧ t.cpu.oddCycle = s.cpu.oddCycle ∧
      (i.mnemonic ∉ ([.lda, .pla, .txa, .tya, .adc, .sbc, .and, .ora, .eor, .asl, .lsr, .rol, .ror] : List Mnemonic) →
        t.cpu.a = s.cpu.a) ∧
      (i.mnemonic ∉ ([.ldx, .tax, .tsx, .inx, .dex] : List Mnemonic) → t.cpu.x = s.cpu.x) ∧
      (i.mnemonic ∉ ([.ldy, .tay, .iny, .dey] : List Mnemonic) → t.cpu.y = s.cpu.y) ∧
      (i.mnemonic ∉ ([.txs, .pla, .plp, .rts, .rti] : List Mnemonic) → t.cpu.sp = s.cpu.sp) ∧
      (i.mnemonic ∉ ([.bcc, .bcs, .beq, .bmi, .bne, .bpl, .bvc, .bvs, .jmp, .rts, .rti] : List Mnemonic) →
        t.cpu.pc = s.cpu.pc)

/-- The stores and the read-modify-write instructions on memory: A, X, Y, SP, PC and the interrupt state are unchanged; no byte
of RAM changes but the one at the effective address, where that lies in the RAM window; PRG ROM never changes, and the cartridge
only when the effective address is at or above 0x4020 (R57, R144). -/
def Obligations.StoringInstructionsChangeOneByte : Prop :=
  ∀ (i : Instr) (s t : State) (m : Mem), exec i s = .next t → i.operand = .mem m →
    i.mnemonic ∈ ([.sta, .stx, .sty, .inc, .dec, .asl, .lsr, .rol, .ror] : List Mnemonic) →
      let ea := (effective m s).addr
      (∀ a : Word, ¬ (ea.toNat < 0x2000 ∧ a.toNat % 2048 = ea.toNat % 2048) → t.ramAt a = s.ramAt a) ∧
      (ea.toNat < 0x4020 → t.cart = s.cart) ∧ t.cart.prgRom = s.cart.prgRom ∧ t.cart.chr = s.cart.chr ∧
      t.params = s.params ∧ t.slot = s.slot ∧
      t.cpu.a = s.cpu.a ∧ t.cpu.x = s.cpu.x ∧ t.cpu.y = s.cpu.y ∧ t.cpu.sp = s.cpu.sp ∧ t.cpu.pc = s.cpu.pc ∧
      t.cpu.nmiPending = s.cpu.nmiPending ∧ t.cpu.nmiLinePrev = s.cpu.nmiLinePrev ∧
      t.cpu.oddCycle = s.cpu.oddCycle ∧ (ea ≠ 0x4014 → t.cpu.stallRemaining = s.cpu.stallRemaining)

/-- The pushing instructions: A, X, Y are unchanged; no byte of RAM changes but the one (PHA, PHP), two (JSR) or three (BRK) stack
bytes from 0x0100 | SP down, wrapping in page 1; the cartridge, the devices and the parameters are unchanged (R24, R58). -/
def Obligations.PushingInstructionsChangeTheirStackBytes : Prop :=
  ∀ (i : Instr) (s t : State) (n : Nat), exec i s = .next t →
    ((i.mnemonic = .pha ∨ i.mnemonic = .php) ∧ n = 1 ∨ i.mnemonic = .jsr ∧ n = 2 ∨ i.mnemonic = .brk ∧ n = 3) →
      (∀ a : Word, (∀ k : Nat, k < n → a.toNat % 2048 ≠ stackIndex (s.cpu.sp - BitVec.ofNat 8 k)) →
        t.ramAt a = s.ramAt a) ∧
      t.cpu.sp = s.cpu.sp - BitVec.ofNat 8 n ∧ t.cpu.a = s.cpu.a ∧ t.cpu.x = s.cpu.x ∧ t.cpu.y = s.cpu.y ∧
      t.cart = s.cart ∧ t.pad = s.pad ∧ t.ppu = s.ppu ∧ t.apu = s.apu ∧ t.params = s.params ∧ t.slot = s.slot ∧
      t.env = s.env ∧ t.cpu.nmiPending = s.cpu.nmiPending ∧ t.cpu.nmiLinePrev = s.cpu.nmiLinePrev ∧
      t.cpu.stallRemaining = s.cpu.stallRemaining ∧ t.cpu.oddCycle = s.cpu.oddCycle

/-- R28: which instructions may write each flag. Every other instruction leaves it. -/
def Obligations.FlagsHaveTheirWriters : Prop :=
  ∀ (i : Instr) (s t : State), exec i s = .next t →
    (i.mnemonic ∉ ([.adc, .sbc, .cmp, .cpx, .cpy, .asl, .lsr, .rol, .ror, .clc, .sec, .plp, .rti] : List Mnemonic) →
      t.cpu.p.c = s.cpu.p.c) ∧
    (i.mnemonic ∉ ([.lda, .ldx, .ldy, .tax, .tay, .tsx, .txa, .tya, .pla, .adc, .sbc, .and, .ora, .eor, .bit, .cmp,
        .cpx, .cpy, .inc, .inx, .iny, .dec, .dex, .dey, .asl, .lsr, .rol, .ror, .plp, .rti] : List Mnemonic) →
      t.cpu.p.z = s.cpu.p.z ∧ t.cpu.p.n = s.cpu.p.n) ∧
    (i.mnemonic ∉ ([.adc, .sbc, .bit, .clv, .plp, .rti] : List Mnemonic) → t.cpu.p.v = s.cpu.p.v) ∧
    (i.mnemonic ∉ ([.sei, .cli, .plp, .rti, .brk] : List Mnemonic) → t.cpu.p.i = s.cpu.p.i) ∧
    (i.mnemonic ∉ ([.sed, .cld, .plp, .rti] : List Mnemonic) → t.cpu.p.d = s.cpu.p.d)

/-! ### Effective addresses -/

/-- The modes with no pointer (R134 to R139): zero-page sums wrap in page 0, absolute sums wrap modulo 2^16, and `crossed` is the
change of the high byte; no bus access is made. -/
def Obligations.DirectModesAddress : Prop :=
  ∀ (z : Byte) (w : Word) (s : State),
    let is (m : Mem) (addr : Nat) (crossed : Bool) : Prop :=
      (effective m s).addr.toNat = addr ∧ (effective m s).crossed = crossed ∧ (effective m s).state = s
    is (.zp z) z.toNat false ∧
    is (.zpx z) ((z.toNat + s.cpu.x.toNat) % 256) false ∧
    is (.zpy z) ((z.toNat + s.cpu.y.toNat) % 256) false ∧
    is (.abs w) w.toNat false ∧
    is (.absx w) ((w.toNat + s.cpu.x.toNat) % 65536)
      (decide ((w.toNat + s.cpu.x.toNat) % 65536 / 256 ≠ w.toNat / 256)) ∧
    is (.absy w) ((w.toNat + s.cpu.y.toNat) % 65536)
      (decide ((w.toNat + s.cpu.y.toNat) % 65536 / 256 ≠ w.toNat / 256))

/-- The pointer modes (R141, R142): both pointer bytes come from the zero page, the second wrapping to 0x0000; (zp),Y adds Y
to the pointer. The pointer reads change only the latch. -/
def Obligations.PointerModesAddress : Prop :=
  ∀ (z : Byte) (s : State),
    (let p := (z.toNat + s.cpu.x.toNat) % 256
     let lo := s.ram.read p
     let hi := s.ram.read ((p + 1) % 256)
     (effective (.indx z) s).addr.toNat = hi.toNat * 256 + lo.toNat ∧ (effective (.indx z) s).crossed = false ∧
     (effective (.indx z) s).state = { s with cpu := { s.cpu with openBus := hi } }) ∧
    (let lo := s.ram.read z.toNat
     let hi := s.ram.read ((z.toNat + 1) % 256)
     let base := hi.toNat * 256 + lo.toNat
     let ea := (base + s.cpu.y.toNat) % 65536
     (effective (.indy z) s).addr.toNat = ea ∧ (effective (.indy z) s).crossed = decide (ea / 256 ≠ base / 256) ∧
     (effective (.indy z) s).state = { s with cpu := { s.cpu with openBus := hi } })

/-! ### The bus -/

/-- R55: the four 2 KiB windows below 0x2000 alias the same bytes; a read returns the byte and a write stores it, with no
effect but the latch. -/
def Obligations.RamIsMirrored : Prop :=
  ∀ (a : Word) (v : Byte) (s : State), a.toNat < 0x2000 →
    busRead a s = (s.ram.read (a.toNat % 2048),
      { s with cpu := { s.cpu with openBus := s.ram.read (a.toNat % 2048) } }) ∧
    busWrite a v s = { s with
      ram := s.ram.write (a.toNat % 2048) v, cpu := { s.cpu with openBus := v } } ∧
    ∀ b : Word, b.toNat < 0x2000 →
      (busRead b (busWrite a v s)).1 = if b.toNat % 2048 = a.toNat % 2048 then v else (busRead b s).1

/-- R54: the latch holds the byte of the last access; a read of a target that drives nothing returns the latch unchanged. -/
def Obligations.LatchHoldsTheLastByte : Prop :=
  ∀ (a : Word) (v : Byte) (s : State),
    (busRead a s).2.cpu.openBus = (busRead a s).1 ∧
    (a ≠ 0x4014 → (busWrite a v s).cpu.openBus = v) ∧
    ((0x4000 ≤ a.toNat ∧ a.toNat ≤ 0x4014 ∨ 0x4018 ≤ a.toNat ∧ a.toNat < 0x4020) → busRead a s = (s.cpu.openBus, s)) ∧
    (0x4018 ≤ a.toNat ∧ a.toNat < 0x4020 →
      busWrite a v s = { s with cpu := { s.cpu with openBus := v } })

/-- R56: a read changes nothing but the latch, except a PPU port, 0x4015 and 0x4016; and it never changes RAM, the cartridge,
a register or a counter of the CPU. The write side of the decoder (R52, R57, R285, R287): a write to a PPU port or an APU
register is one call of that device and changes, besides the latch, nothing but it; PPUCTRL is latched, with its `nmi_enable`; a
write at or above 0x4020 is the mapper's `cpu_write`. The flips of the write toggle are log 14, the effect of 0x4017 bit 6
on the frame interrupt is log 17, and the records of the calls are log 15. -/
def Obligations.ReadsHaveOnlyTheListedEffects : Prop :=
  ∀ (a : Word) (s : State),
    let t := (busRead a s).2
    t.cpu = { s.cpu with openBus := (busRead a s).1 } ∧ t.ram = s.ram ∧ t.cart = s.cart ∧ t.params = s.params ∧
    t.slot = s.slot ∧ t.env.ppu = s.env.ppu ∧ t.env.apu = s.env.apu ∧
    (¬ (0x2000 ≤ a.toNat ∧ a.toNat < 0x4000) → t.ppu = s.ppu) ∧
    (a ≠ 0x4015 → t.apu = s.apu) ∧ (a ≠ 0x4016 → t.pad = s.pad) ∧
    ∀ v : Byte,
      (0x2000 ≤ a.toNat → a.toNat < 0x4000 →
        busWrite a v s = { s with
          cpu := { s.cpu with openBus := v }
          ppu := { s.ppu with
            ctrl := if a.toNat % 8 = 0 then v else s.ppu.ctrl
            toggle := if a.toNat % 8 = 5 ∨ a.toNat % 8 = 6 then !s.ppu.toggle else s.ppu.toggle
            calls := .write (BitVec.ofNat 3 (a.toNat % 8)) v :: s.ppu.calls } } ∧
        (a.toNat % 8 = 0 → (busWrite a v s).ppu.nmiOut = (s.ppu.vblank && decide (128 ≤ v.toNat)))) ∧
      ((0x4000 ≤ a.toNat ∧ a.toNat < 0x4014 ∨ a.toNat = 0x4015 ∨ a.toNat = 0x4017) →
        busWrite a v s = { s with
          cpu := { s.cpu with openBus := v }
          apu := { s.apu with
            frameIrq := if a.toNat = 0x4017 ∧ 64 ≤ v.toNat % 128 then false else s.apu.frameIrq
            calls := .write a v :: s.apu.calls } }) ∧
      (0x4020 ≤ a.toNat →
        busWrite a v s = { s with cpu := { s.cpu with openBus := v }, cart := s.cart.cpuWrite a v })

/-- R288, R56: a read of PPUSTATUS, at 0x2002 or any mirror, returns the vblank flag in bit 7, then clears the flag and the
write toggle, which lowers the NMI output (R287). That the PPU block gets exactly one call is R285's contract, kept in the
model's own record of the calls (log 15, DESIGN CHOICE). -/
def Obligations.PpuStatusReadClearsVblank : Prop :=
  ∀ (a : Word) (s : State), 0x2000 ≤ a.toNat → a.toNat < 0x4000 → a.toNat % 8 = 2 →
    (busRead a s).1.getLsbD 7 = s.ppu.vblank ∧ (busRead a s).2.ppu.vblank = false ∧
    (busRead a s).2.ppu.toggle = false ∧ (busRead a s).2.ppu.nmiOut = false ∧
    (busRead a s).2.ppu.calls = .read 2 :: s.ppu.calls

/-- R71 to R74 (their bit order, fill and second port are the spec's decision D15). A write to 0x4016 sets the strobe from bit
0 and loads the register while it is 1; so does the host's byte. A read of 0x4016 has the latch's upper three bits, 0 in bits 4
to 1 and in bit 0 the byte's bit 0 while the strobe is 1, which shifts nothing, else the register's bit 0; 0x4017 has the
parameter's bit. After a write with bit 0 set and one with bit 0 clear, eight reads return the bits of the controller byte, bit
0 first, and every later read 1. -/
def Obligations.ControllerShiftsOutItsByte : Prop :=
  ∀ (s : State) (v w : Byte),
    let upper := s.cpu.openBus.toNat / 32 * 32
    busWrite 0x4016 v s = { s with
      cpu := { s.cpu with openBus := v }
      pad := { s.pad with
        strobe := decide (v.toNat % 2 = 1), shift := if v.toNat % 2 = 1 then s.pad.byte else s.pad.shift } } ∧
    supplyController v s = { s with pad := { s.pad with byte := v, shift := if s.pad.strobe then v else s.pad.shift } } ∧
    (s.pad.strobe = true →
      (busRead 0x4016 s).1.toNat = upper + s.pad.byte.toNat % 2 ∧ (busRead 0x4016 s).2.pad = s.pad) ∧
    (s.pad.strobe = false →
      (busRead 0x4016 s).1.toNat = upper + s.pad.shift.toNat % 2 ∧
      (busRead 0x4016 s).2.pad = { s.pad with shift := BitVec.ofNat 8 (128 + s.pad.shift.toNat / 2) }) ∧
    (busRead 0x4017 s).1.toNat = upper + bitNat s.params.controller2 ∧
    (busRead 0x4017 s).2 = { s with cpu := { s.cpu with openBus := (busRead 0x4017 s).1 } } ∧
    (v.getLsbD 0 = true → w.getLsbD 0 = false →
      let reads (n : Nat) : State := (fun u => (busRead 0x4016 u).2)^[n] (busWrite 0x4016 w (busWrite 0x4016 v s))
      ∀ n : Nat, (busRead 0x4016 (reads n)).1.toNat =
        (reads n).cpu.openBus.toNat / 32 * 32 + (if n < 8 then bitNat (s.pad.byte.getLsbD n) else 1))

/-- R295: sprite DMA from a RAM page writes the 256 bytes of the page to OAMDATA in rising order and adds 513 stall steps, 514
on an odd step; switched off, the write is ignored. -/
def Obligations.SpriteDmaCopiesAPage : Prop :=
  ∀ (s : State) (v : Byte), v.toNat < 0x20 →
    let t := busWrite 0x4014 v s
    (s.params.oamDmaEnabled = true →
      t.ppu.calls = (List.range 256).reverse.map
        (fun k => PpuCall.write 4 (s.ram.read ((v.toNat * 256 + k) % 2048))) ++ s.ppu.calls ∧
      t.cpu.stallRemaining = s.cpu.stallRemaining + (if s.cpu.oddCycle then 514 else 513) ∧
      t.cpu.openBus = s.ram.read ((v.toNat * 256 + 255) % 2048) ∧ t.ram = s.ram) ∧
    (s.params.oamDmaEnabled = false → t = { s with cpu := { s.cpu with openBus := v } })

/-! ### The cartridge -/

/-- R78, R79: NROM reads open bus below 0x8000 and PRG ROM modulo its size above, so one bank is mirrored; its writes change
nothing. -/
def Obligations.NromReadsAndIgnoresWrites : Prop :=
  ∀ (m : Mapper) (a : Word) (ob v : Byte), m.chip = .nrom →
    m.cpuRead a ob = (if a.toNat < 0x8000 then ob else m.prgRom.read ((a.toNat - 0x8000) % (m.prgBanks * 0x4000))) ∧
    m.cpuWrite a v = m ∧
    (m.prgBanks = 1 → ∀ k : Nat, k < 0x4000 →
      m.cpuRead (BitVec.ofNat 16 (0x8000 + k)) ob = m.cpuRead (BitVec.ofNat 16 (0xC000 + k)) ob)

/-- R86 to R88: from the reset marker, five qualifying writes (bit 7 clear, at or above 0x8000) commit their low bits, the
first one lowest, to the register the fifth address selects, and the shift register resets; the other addresses do not
matter. The marker form is the spec's derivation in R86. -/
def Obligations.Mmc1FifthWriteCommits : Prop :=
  ∀ (m : Mapper) (r : Mmc1) (a1 a2 a3 a4 a5 : Word) (v0 v1 v2 v3 v4 : Byte), m.chip = .mmc1 r → r.shift = 0x10 →
    (0x8000 ≤ a1.toNat ∧ 0x8000 ≤ a2.toNat ∧ 0x8000 ≤ a3.toNat ∧ 0x8000 ≤ a4.toNat ∧ 0x8000 ≤ a5.toNat) →
    (v0.toNat < 128 ∧ v1.toNat < 128 ∧ v2.toNat < 128 ∧ v3.toNat < 128 ∧ v4.toNat < 128) →
      let value := v0.toNat % 2 + 2 * (v1.toNat % 2) + 4 * (v2.toNat % 2) + 8 * (v3.toNat % 2) + 16 * (v4.toNat % 2)
      let after := ((((m.cpuWrite a1 v0).cpuWrite a2 v1).cpuWrite a3 v2).cpuWrite a4 v3).cpuWrite a5 v4
      let becomes (t : Mmc1) : Prop := after = { m with chip := .mmc1 t }
      if a5.toNat < 0xA000 then becomes { r with
        mirroring := if value % 4 = 0 then .oneScreenLow else if value % 4 = 1 then .oneScreenHigh
          else if value % 4 = 2 then .vertical else .horizontal
        prgMode := BitVec.ofNat 2 (value / 4), chrMode := decide (16 ≤ value) }
      else if a5.toNat < 0xC000 then becomes { r with chrBank0 := BitVec.ofNat 5 value }
      else if a5.toNat < 0xE000 then becomes { r with chrBank1 := BitVec.ofNat 5 value }
      else becomes { r with prgBank := BitVec.ofNat 4 value }

/-- R84, R85: an MMC1 ignores writes below 0x8000; one with bit 7 set resets the shift register and forces PRG mode 3, whatever
the state, and changes nothing else. -/
def Obligations.Mmc1ResetWrite : Prop :=
  ∀ (m : Mapper) (r : Mmc1) (a : Word) (v : Byte), m.chip = .mmc1 r →
    (a.toNat < 0x8000 → m.cpuWrite a v = m) ∧
    (0x8000 ≤ a.toNat → 128 ≤ v.toNat →
      m.cpuWrite a v = { m with chip := .mmc1 { r with shift := 0x10, prgMode := 3 } })

/-- R89 to R92: MMC1's PRG translation in its four modes, and open bus below 0x8000. -/
def Obligations.Mmc1PrgTranslation : Prop :=
  ∀ (m : Mapper) (r : Mmc1) (a : Word) (ob : Byte), m.chip = .mmc1 r →
    let size := m.prgBanks * 0x4000
    let k := a.toNat
    let bank := r.prgBank.toNat
    m.cpuRead a ob =
      if k < 0x8000 then ob
      else m.prgRom.read (
        if r.prgMode.toNat < 2 then (bank / 2 * 2 * 0x4000 + (k - 0x8000)) % size
        else if r.prgMode.toNat = 2 then
          if k < 0xC000 then (k - 0x8000) % size else (bank * 0x4000 + (k - 0xC000)) % size
        else
          if k < 0xC000 then (bank * 0x4000 + (k - 0x8000)) % size else size - 0x4000 + (k - 0xC000))

/-- R97, R98 (their CPU side), R80, R93 to R95 and R81 (the PPU side): the banked reads of UxROM and CNROM, the unbanked CHR of
NROM and UxROM, MMC1's CHR banks, and CHR RAM, which is written unbanked, while CHR ROM is never written. R77, R82, R87: the
mirroring of each chip, and the nametable byte a PPU address names, in every mirror. -/
def Obligations.BankedMappersTranslate : Prop :=
  ∀ (m : Mapper) (a : Word) (c : BitVec 13) (q : BitVec 14) (ob v b : Byte) (r : Mmc1),
    let size := m.prgBanks * 0x4000
    (m.chip = .uxrom b →
      m.cpuRead a ob = (if a.toNat < 0x8000 then ob
        else if a.toNat < 0xC000 then m.prgRom.read ((b.toNat * 0x4000 + (a.toNat - 0x8000)) % size)
        else m.prgRom.read (size - 0x4000 + (a.toNat - 0xC000))) ∧
      m.cpuWrite a v = if a.toNat < 0x8000 then m else { m with chip := .uxrom v }) ∧
    (m.chip = .cnrom b →
      m.cpuRead a ob = (if a.toNat < 0x8000 then ob else m.prgRom.read ((a.toNat - 0x8000) % size)) ∧
      m.cpuWrite a v = (if a.toNat < 0x8000 then m else { m with chip := .cnrom v }) ∧
      (m.chrBanks ≠ 0 → m.ppuRead c = m.chr.read ((b.toNat * 0x2000 + c.toNat) % (m.chrBanks * 0x2000)))) ∧
    (m.chip = .mmc1 r → m.chrBanks ≠ 0 →
      m.ppuRead c = m.chr.read (
        if r.chrMode = false then (r.chrBank0.toNat / 2 * 2 * 0x1000 + c.toNat) % (m.chrBanks * 0x2000)
        else if c.toNat < 0x1000 then (r.chrBank0.toNat * 0x1000 + c.toNat) % (m.chrBanks * 0x2000)
        else (r.chrBank1.toNat * 0x1000 + (c.toNat - 0x1000)) % (m.chrBanks * 0x2000))) ∧
    ((∀ calls, m.chip ≠ .mmc3 calls) →
      (m.chrBanks = 0 → m.ppuRead c = m.chr.read c.toNat ∧ (m.ppuWrite c v).ppuRead c = v ∧
        ∀ d : BitVec 13, d ≠ c → (m.ppuWrite c v).ppuRead d = m.ppuRead d) ∧
      (m.chrBanks ≠ 0 → m.ppuWrite c v = m)) ∧
    (m.chip = .nrom ∨ m.chip = .uxrom b → m.ppuRead c = m.chr.read c.toNat) ∧
    (m.chip = .nrom ∨ m.chip = .uxrom b ∨ m.chip = .cnrom b → m.mirroring = m.headerMirroring) ∧
    (m.chip = .mmc1 r → m.mirroring = r.mirroring) ∧
    (let n := q.toNat / 0x400 % 4
     let page := match m.mirroring with
       | .horizontal => n / 2
       | .vertical => n % 2
       | .oneScreenLow => 0
       | .oneScreenHigh => 1
     m.nametableAddress q = if 0x2000 ≤ q.toNat ∧ q.toNat < 0x3F00
       then some (BitVec.ofNat 11 (page * 0x400 + q.toNat % 0x400)) else none)

/-! ### Interrupts and the interleave -/

/-- The interrupt inputs. NMI: a rise of the sampled line sets the pending flag, which stays until taken; a line held or low
makes no edge (R263; the sampling is D20). IRQ: the OR of the mapper's, the frame sequencer's and the DMC's sources (R264, D19);
NROM, MMC1, UxROM and CNROM drive 0; a read of 0x4015 withdraws the frame interrupt (R56) and, by the model's deduction of log
17, leaves the DMC's. -/
def Obligations.InterruptInputs : Prop :=
  ∀ (l : Bool) (s : State),
    nmiSample l s = { s with cpu := { s.cpu with
      nmiPending := s.cpu.nmiPending || (l && !s.cpu.nmiLinePrev), nmiLinePrev := l } } ∧
    (s.irqLine = true ↔ s.cart.irqOut = true ∨ s.apu.frameIrq = true ∨ s.apu.dmcIrq = true) ∧
    ((∀ calls, s.cart.chip ≠ .mmc3 calls) → s.cart.irqOut = false) ∧
    (busRead 0x4015 s).2.apu.frameIrq = false ∧ (busRead 0x4015 s).2.apu.dmcIrq = s.apu.dmcIrq

/-- R267: the entry sequence of NMI and IRQ: the pending edge is taken, the frame holds the address of the instruction not
executed, high byte first, and the status byte with B = 0; I is set, D is not changed, PC comes from the vector through the
mapper, low byte first; 7 cycles. -/
def Obligations.InterruptEntryPushesTheFrame : Prop :=
  ∀ s : State,
    enterNmi s = entryResult 0xFFFA s.cpu.pc false { s with cpu := { s.cpu with nmiPending := false } } ∧
    enterIrq s = entryResult 0xFFFE s.cpu.pc false s

/-- A boundary with a pending NMI takes it, whatever I holds and whether or not IRQ is asserted; without one, an asserted IRQ is
taken exactly when I = 0; otherwise the instruction at PC runs (R264 to R266; poll point and priority are the spec's decisions
D4 and D5). -/
def Obligations.InterruptsAreTakenAtTheBoundary : Prop :=
  ∀ s : State, s.AtBoundary →
    (s.cpu.nmiPending = true → cpuStep s =
      .next (entryResult 0xFFFA s.cpu.pc false { s with cpu := { s.cpu with nmiPending := false } }).toggleOdd) ∧
    (s.cpu.nmiPending = false → s.irqLine = true → s.cpu.p.i = false → cpuStep s =
      .next (entryResult 0xFFFE s.cpu.pc false s).toggleOdd) ∧
    (s.cpu.nmiPending = false → (s.irqLine = false ∨ s.cpu.p.i = true) → cpuStep s =
      andThen State.toggleOdd (fetchExecute s))

/-- A PPU step moves the position one dot, through 341 dots of 262 lines; where the block shortens an odd frame it goes from
scanline 261 dot 339 to the next frame's first dot (the model's choice, log 11). The vblank flag is set on reaching scanline 241
dot 1 and clear on scanlines 0 to 240 and on 261 from the reset point on (R280, R289, R290). CPU and RAM are unchanged. -/
def Obligations.PpuStepAdvancesThePosition : Prop :=
  ∀ s : State, Ppu.InRange s.ppu →
    let t := ppuStep s
    let short := s.env.ppuTick.shorten = true ∧ s.ppu.frameOdd = true ∧ s.ppu.scanline = 261 ∧ s.ppu.dot = 339
    (¬ short → t.ppu.scanline * 341 + t.ppu.dot = (s.ppu.scanline * 341 + s.ppu.dot + 1) % 89342) ∧
    (short → t.ppu.scanline = 0 ∧ t.ppu.dot = 0) ∧ t.ppu.dot ≤ 340 ∧
    (t.ppu.scanline = 241 ∧ t.ppu.dot = 1 → t.ppu.vblank = true) ∧
    (t.ppu.scanline ≤ 240 ∨ t.ppu.scanline = 261 ∧ s.params.vblankClearDot ≤ t.ppu.dot → t.ppu.vblank = false) ∧
    (t.ppu.scanline = 241 ∧ t.ppu.dot ≠ 1 ∨ 242 ≤ t.ppu.scanline ∧ t.ppu.scanline ≤ 260 ∨
        t.ppu.scanline = 261 ∧ t.ppu.dot < s.params.vblankClearDot → t.ppu.vblank = s.ppu.vblank) ∧
    t.cpu = s.cpu ∧ t.ram = s.ram

/-- A DMC fetch in the APU step reads through the CPU decoder, with the latch, and adds `dmc_stall_cycles`; no register, flag or
RAM byte changes (R293; the stall's length is the parameter of D17). -/
def Obligations.DmcFetchStallsTheCpu : Prop :=
  ∀ (s : State) (u : ApuTick) (rest : List ApuTick) (a : Word),
    s.env.apu = u :: rest → u.dmcFetch = some a →
      let s0 : State := { s with apu := u.onApu s.apu, env := { s.env with apu := rest } }
      let b := (busRead a s0).1
      let t := apuStep s
      t.cpu = { s.cpu with
        openBus := b, stallRemaining := s.cpu.stallRemaining + s.params.dmcStallCycles } ∧
      t.ram = s.ram ∧ t.cart = s.cart ∧ t.apu.calls.head? = some (.sample a b) ∧ t.env.apu = rest

/-- R275: one step is a CPU step, three PPU steps each followed by an NMI sample, and one APU step, in this order. -/
def Obligations.StepInterleavesOneThreeOne : Prop :=
  ∀ s t : State, step s = .next t ↔
    ∃ s0 s1 s2 s3, cpuStep s = .next s0 ∧ s1 = nmiSample (ppuStep s0).ppu.nmiOut (ppuStep s0) ∧
      s2 = nmiSample (ppuStep s1).ppu.nmiOut (ppuStep s1) ∧ s3 = nmiSample (ppuStep s2).ppu.nmiOut (ppuStep s2) ∧
      t = apuStep s3

/-! ### Whole-machine rules -/

/-- Every step from a state with the invariant reaches a state with it, and so does every move of the host between two steps:
canonical memories of their sizes, a legal cartridge, a PPU position in range, the vblank flag only in its window (R55, R76, R83,
R280, R289, R276). -/
def Obligations.StepKeepsTheInvariant : Prop :=
  ∀ s t : State, s.Inv → (step s = .next t → t.Inv) ∧ ∀ k : Move, move k s = .next t → t.Inv

/-- The state after reset has the invariant, and so has every state that construction makes of an image, whatever RAM and CHR
RAM hold (R101, R320, R321, R325, R326); with the parameters in their ranges it is a power-on state, its cartridge valid and its
chip at power-on. -/
def Obligations.PowerOnHasTheInvariant : Prop :=
  State.reset.Inv ∧
  ∀ (params : Params) (regs : ResetRegs) (ram chrRam : Memory) (img : List Byte) (s : State),
    RamValid ram → chrRam.wf = true → chrRam.below 0x2000 = true → construct params regs ram chrRam img = .ok s →
      s.Inv ∧ (params.Valid → s.IsPowerOn)

/-- R76, R57, R65, R100: no step changes the parameters, PRG ROM, CHR ROM, the bank counts, the header's mirroring or the
snapshot slot. -/
def Obligations.StepNeverChangesTheRom : Prop :=
  ∀ s t : State, step s = .next t → s.SameBoard t

/-- R276, §8: a restore after a save and any number of steps brings back the saved System, field for field, whatever ran in
between. -/
def Obligations.RestoreBringsBackTheSavedSystem : Prop :=
  ∀ (s t : State) (n : Nat), Host.Core.run core n (save s) = .next t →
    (restore t).2 = true ∧ s.SameSystem (restore t).1

/-- R276: a restore before any save is refused and changes nothing; a save fills the one slot, over what it held. -/
def Obligations.RestoreWithoutASaveIsRefused : Prop :=
  ∀ s : State, (s.slot = none → restore s = (s, false)) ∧ (save s).slot = some s.snapshot ∧ s.SameSystem (save s)

/-- R37, R323, R325 to R328: what the spec gives of the power-on state, for any parameters, `reset_regs`, RAM and cartridge; with
the chip at power-on no IRQ source is asserted (R264, R328; MMC3's is log 26). The defaults of State.reset are decision D7 (log
2). -/
def Obligations.PowerOnState : Prop :=
  ∀ (params : Params) (regs : ResetRegs) (ram : Memory) (cart : Mapper),
    let s := State.powerOn params regs ram cart
    s.cpu.pc = wordOf (cart.cpuRead 0xFFFD 0) (cart.cpuRead 0xFFFC 0) ∧
    s.cpu.a = regs.a ∧ s.cpu.x = regs.x ∧ s.cpu.y = regs.y ∧ s.cpu.sp = regs.sp ∧
    s.cpu.p = ⟨regs.n, regs.v, regs.d, true, regs.z, regs.c⟩ ∧
    s.cpu.cyclesRemaining = 0 ∧ s.cpu.nmiPending = false ∧ s.cpu.nmiLinePrev = false ∧ s.cpu.stallRemaining = 0 ∧
    s.cpu.oddCycle = false ∧ s.cpu.openBus = 0 ∧ s.pad = ⟨0, 0, false⟩ ∧ s.ppu.nmiOut = false ∧
    s.apu.frameIrq = false ∧ s.apu.dmcIrq = false ∧
    (∀ n : Nat, powerOnChip cart.headerMirroring n = some cart.chip → s.irqLine = false) ∧
    s.ram = ram ∧ s.cart = cart ∧ s.params = params ∧ s.slot = none ∧
    State.reset.cpu.a = 0 ∧ State.reset.cpu.x = 0 ∧ State.reset.cpu.y = 0 ∧ State.reset.cpu.sp = 0xFD ∧
    State.reset.cpu.p = ⟨false, false, false, true, false, false⟩

/-- R321, R101, R76: the load errors, each for the images it names, in the order of R321's list where several hold (the order is
the model's deduction, log 27); any other image loads, with the bank counts and the mirroring of its header, the chip of its
mapper number at power-on, and its bytes: PRG and CHR as the image holds them, the trainer skipped, CHR RAM the given draw. -/
def Obligations.LoadErrorsAreTheListed : Prop :=
  ∀ (img : List Byte) (chrRam : Memory),
    let byte (k : Nat) : Nat := (img.getD k 0).toNat
    let number := byte 7 / 16 * 16 + byte 6 / 16
    let start := 16 + (if byte 6 / 4 % 2 = 1 then 512 else 0)
    let size := start + byte 4 * 0x4000 + byte 5 * 0x2000
    let magic := img.take 4 = [0x4E, 0x45, 0x53, 0x1A]
    (¬ magic → loadImage img chrRam = .error .malformedMagic) ∧
    (magic → img.length < size → loadImage img chrRam = .error .truncatedData) ∧
    (magic → size ≤ img.length → 4 < number → loadImage img chrRam = .error (.unsupportedMapper number)) ∧
    (magic → size ≤ img.length → number ≤ 4 → byte 4 = 0 → loadImage img chrRam = .error .noPrgBank) ∧
    (magic → size ≤ img.length → number ≤ 4 → byte 4 ≠ 0 → ∃ m, loadImage img chrRam = .ok m ∧
      m.prgBanks = byte 4 ∧ m.chrBanks = byte 5 ∧
      m.headerMirroring = (if byte 6 % 2 = 1 then .vertical else .horizontal) ∧
      powerOnChip m.headerMirroring number = some m.chip ∧
      (∀ k : Nat, k < byte 4 * 0x4000 → (m.prgRom.read k).toNat = byte (start + k)) ∧
      (byte 5 ≠ 0 → ∀ k : Nat, k < byte 5 * 0x2000 → (m.chr.read k).toNat = byte (start + byte 4 * 0x4000 + k)) ∧
      (byte 5 = 0 → m.chr = chrRam))

/-- RTS right after JSR returns to the instruction after the JSR and restores SP (R230, R231); RTI right after an NMI or IRQ entry
returns to the instruction not executed with every flag and SP restored (R267, R248, R270). -/
def Obligations.ReturnsUndoCallsAndEntries : Prop :=
  ∀ (w : Word) (s t : State),
    (exec (.jsr w) s = .next t →
      ∃ u, exec .rts t = .next u ∧ u.cpu.pc = s.cpu.pc ∧ u.cpu.sp = s.cpu.sp ∧ u.cpu.p = s.cpu.p) ∧
    (t = enterNmi s ∨ t = enterIrq s →
      ∃ u, exec .rti t = .next u ∧ u.cpu.pc = s.cpu.pc ∧ u.cpu.sp = s.cpu.sp ∧ u.cpu.p = s.cpu.p ∧
        u.cpu.a = s.cpu.a ∧ u.cpu.x = s.cpu.x ∧ u.cpu.y = s.cpu.y)
end

