-- ==== Sys2Proof/Laws/Bits.lean ====
section
/-! SUPPORT. The bit-level helpers of the model in numbers: byte order, the status byte, the flag writes, the stack addresses. -/

namespace Sys2Proof.Machine

/-! ### Byte order -/

theorem toNat_mkWord (hi lo : Byte) : (mkWord hi lo).toNat = hi.toNat * 256 + lo.toNat := by
  rw [mkWord, BitVec.toNat_append, ← Nat.shiftLeft_add_eq_or_of_lt lo.isLt, Nat.shiftLeft_eq]

theorem toNat_loByte (w : Word) : (loByte w).toNat = w.toNat % 256 := by
  simp [loByte, BitVec.extractLsb'_toNat]

theorem toNat_hiByte (w : Word) : (hiByte w).toNat = w.toNat / 256 := by
  have := w.isLt
  rw [hiByte, BitVec.extractLsb'_toNat, Nat.shiftRight_eq_div_pow]
  omega

theorem mkWord_eq_wordOf (hi lo : Byte) : mkWord hi lo = wordOf hi lo := by
  apply BitVec.eq_of_toNat_eq
  have := hi.isLt
  have := lo.isLt
  rw [toNat_mkWord, wordOf, BitVec.toNat_ofNat]
  omega

theorem hiByte_eq_highOf (w : Word) : hiByte w = highOf w := by
  apply BitVec.eq_of_toNat_eq
  have := w.isLt
  rw [toNat_hiByte, highOf, BitVec.toNat_ofNat]
  omega

theorem loByte_eq_lowOf (w : Word) : loByte w = lowOf w := by
  apply BitVec.eq_of_toNat_eq
  rw [toNat_loByte, lowOf, BitVec.toNat_ofNat]
  omega

@[simp] theorem mkWord_hiByte_loByte (w : Word) : mkWord (hiByte w) (loByte w) = w := by
  apply BitVec.eq_of_toNat_eq
  rw [toNat_mkWord, toNat_hiByte, toNat_loByte]
  omega

@[simp] theorem loByte_mkWord (hi lo : Byte) : loByte (mkWord hi lo) = lo := by
  apply BitVec.eq_of_toNat_eq
  have := lo.isLt
  rw [toNat_loByte, toNat_mkWord]
  omega

@[simp] theorem hiByte_mkWord (hi lo : Byte) : hiByte (mkWord hi lo) = hi := by
  apply BitVec.eq_of_toNat_eq
  have := lo.isLt
  rw [toNat_hiByte, toNat_mkWord]
  omega

theorem toNat_zext16 (v : Byte) : (zext16 v).toNat = v.toNat := by
  rw [zext16, BitVec.zeroExtend, BitVec.toNat_setWidth]
  have := v.isLt
  omega

/-! ### Flags -/

theorem bit7_eq (v : Byte) : v.getLsbD 7 = decide (128 ≤ v.toNat) := by revert v; decide

theorem bit6_eq (v : Byte) : v.getLsbD 6 = decide (64 ≤ v.toNat % 128) := by revert v; decide

theorem bit0_eq (v : Byte) : v.getLsbD 0 = decide (v.toNat % 2 = 1) := by revert v; decide

theorem eq_zero_iff (v : Byte) : v = 0 ↔ v.toNat = 0 := by revert v; decide

/-- `NZ(v)`, as computed and as read in numbers. -/
theorem nz_eq_NZ (p : Flags) (v : Byte) : p.nz v = NZ p v := by
  simp only [Flags.nz, NZ, bit7_eq, eq_zero_iff]

theorem toByte_eq_statusByte (p : Flags) (b : Bool) : p.toByte b = statusByte p b := by
  obtain ⟨n, v, d, i, z, c⟩ := p
  revert n v d i z c b
  decide

theorem ofByte_eq_flagsOf (b : Byte) : Flags.ofByte b = flagsOf b := by revert b; decide

/-- Pulling a pushed status byte restores the six flags, whatever B was (10_state.md R27). -/
@[simp] theorem flagsOf_statusByte (p : Flags) (b : Bool) : flagsOf (statusByte p b) = p := by
  obtain ⟨n, v, d, i, z, c⟩ := p
  revert n v d i z c b
  decide

/-- ADC's sum in numbers: the result is the sum modulo 2^8, the carry its bit 8. -/
theorem adc_sum (p : Flags) (a m : Byte) :
    (p.adc a m).1 = BitVec.ofNat 8 (a.toNat + m.toNat + bitNat p.c) ∧
      (p.adc a m).2.c = decide (256 ≤ a.toNat + m.toNat + bitNat p.c) := by
  have ha := a.isLt
  have hm := m.isLt
  constructor
  · apply BitVec.eq_of_toNat_eq
    simp only [Flags.adc, BitVec.extractLsb'_toNat, BitVec.toNat_add, BitVec.zeroExtend, BitVec.toNat_setWidth, bitNat,
      BitVec.toNat_ofNat, BitVec.toNat_ofBool]
    cases p.c <;> simp
  · simp only [Flags.adc, Flags.nz]
    rw [BitVec.getLsbD, Nat.testBit_eq_decide_div_mod_eq]
    simp only [BitVec.toNat_add, BitVec.zeroExtend, BitVec.toNat_setWidth, bitNat, BitVec.toNat_ofBool]
    cases p.c <;> simp <;> omega

/-! ### Stack addresses -/

theorem toNat_stackAddr (sp : Byte) : (stackAddr sp).toNat = stackIndex sp := toNat_mkWord 0x01 sp

theorem stackIndex_lt (sp : Byte) : stackIndex sp < 512 := by
  have := sp.isLt
  unfold stackIndex
  omega

theorem stackIndex_inj {a b : Byte} (h : stackIndex a = stackIndex b) : a = b := by
  apply BitVec.eq_of_toNat_eq
  unfold stackIndex at h
  omega

end Sys2Proof.Machine
end

