-- ==== Sys2Proof/Laws/Memory.lean ====
section
/-! SUPPORT. The laws of a memory: a read after a write, and every operation keeps the canonical form. The read-over-write
laws hold of every list of cells, canonical or not. -/

namespace Sys2Proof.Machine

theorem Memory.read_nil (a : Nat) : Memory.read [] a = Memory.unlisted := rfl

/-- Cells below an address do not matter to a read above them. -/
theorem Memory.read_dropWhile {a c : Nat} (h : a < c) (m : Memory) :
    Memory.read (m.dropWhile (fun x => x.1 ≤ a)) c = m.read c := by
  induction m with
  | nil => rfl
  | cons x m ih =>
    obtain ⟨b, w⟩ := x
    by_cases hb : b ≤ a
    · rw [List.dropWhile_cons_of_pos (by simpa using hb), ih]
      simp only [Memory.read]
      rw [if_neg (by omega), if_neg (by omega)]
    · rw [List.dropWhile_cons_of_neg (by simpa using hb)]

/-- After the cells up to `a` are dropped, nothing at or below `a` is listed. -/
theorem Memory.read_dropWhile_le {a c : Nat} (h : c ≤ a) (m : Memory) :
    Memory.read (m.dropWhile (fun x => x.1 ≤ a)) c = Memory.unlisted := by
  induction m with
  | nil => rfl
  | cons x m ih =>
    obtain ⟨b, w⟩ := x
    by_cases hb : b ≤ a
    · rw [List.dropWhile_cons_of_pos (by simpa using hb), ih]
    · rw [List.dropWhile_cons_of_neg (by simpa using hb)]
      simp only [Memory.read]
      rw [if_pos (by omega)]

/-- A read at the address written gives the value written. -/
@[simp] theorem Memory.read_write_same (m : Memory) (a : Nat) (v : Byte) : (m.write a v).read a = v := by
  induction m with
  | nil => by_cases hv : v = Memory.unlisted <;> simp [Memory.write, Memory.read, hv]
  | cons x m ih =>
    obtain ⟨b, w⟩ := x
    simp only [Memory.write]
    split
    · split <;> simp_all [Memory.read]
    · split
      · split
        · next hv => rw [Memory.read_dropWhile_le (Nat.le_refl a), hv]
        · simp [Memory.read]
      · next h1 h2 => simp only [Memory.read, if_neg h1, if_neg h2, ih]

/-- A read at any other address gives what it gave before. -/
theorem Memory.read_write_other {a c : Nat} (h : c ≠ a) (m : Memory) (v : Byte) :
    (m.write a v).read c = m.read c := by
  induction m with
  | nil =>
    by_cases hv : v = Memory.unlisted <;> simp [Memory.write, Memory.read, hv]
    omega
  | cons x m ih =>
    obtain ⟨b, w⟩ := x
    simp only [Memory.write]
    split
    · next hab =>
      split
      · rfl
      · by_cases hc : c < a
        · simp only [Memory.read, if_pos hc, if_pos (Nat.lt_trans hc hab)]
        · simp only [Memory.read, if_neg hc, if_neg h]
    · split
      · next hab =>
        subst hab
        split
        · by_cases hc : c < a
          · rw [Memory.read_dropWhile_le (by omega)]
            simp only [Memory.read, if_pos hc]
          · rw [Memory.read_dropWhile (by omega)]
            simp only [Memory.read, if_neg hc, if_neg h]
        · simp only [Memory.read, if_neg h]
      · simp only [Memory.read, ih]

/-! ### The canonical form -/

theorem Memory.wfFrom_mono {lo lo' : Nat} (h : lo ≤ lo') {m : Memory} (hm : Memory.wfFrom lo' m = true) :
    Memory.wfFrom lo m = true := by
  cases m with
  | nil => rfl
  | cons x m =>
    obtain ⟨b, w⟩ := x
    simp only [Memory.wfFrom, Bool.and_eq_true, decide_eq_true_eq] at hm ⊢
    exact ⟨⟨by omega, hm.1.2⟩, hm.2⟩

/-- In a canonical memory above `a` nothing is at or below `a`. -/
theorem Memory.dropWhile_of_wfFrom {a : Nat} {m : Memory} (hm : Memory.wfFrom (a + 1) m = true) :
    m.dropWhile (fun x => x.1 ≤ a) = m := by
  cases m with
  | nil => rfl
  | cons x m =>
    obtain ⟨b, w⟩ := x
    simp only [Memory.wfFrom, Bool.and_eq_true, decide_eq_true_eq] at hm
    exact List.dropWhile_cons_of_neg (by simp; omega)

theorem Memory.wfFrom_write {lo a : Nat} {m : Memory} (h : lo ≤ a) (hm : Memory.wfFrom lo m = true) (v : Byte) :
    Memory.wfFrom lo (m.write a v) = true := by
  induction m generalizing lo with
  | nil => by_cases hv : v = Memory.unlisted <;> simp [Memory.write, Memory.wfFrom, hv, h]
  | cons x m ih =>
    obtain ⟨b, w⟩ := x
    simp only [Memory.wfFrom, Bool.and_eq_true, decide_eq_true_eq] at hm
    simp only [Memory.write]
    split
    · split
      · simp [Memory.wfFrom, hm]
      · next hab hv => simp only [Memory.wfFrom, Bool.and_eq_true, decide_eq_true_eq]; exact ⟨⟨h, hv⟩, ⟨by omega, hm.1.2⟩, hm.2⟩
    · split
      · next hab =>
        subst hab
        split
        · rw [Memory.dropWhile_of_wfFrom hm.2]
          exact Memory.wfFrom_mono (by omega) hm.2
        · next hv => simp only [Memory.wfFrom, Bool.and_eq_true, decide_eq_true_eq]; exact ⟨⟨h, hv⟩, hm.2⟩
      · simp only [Memory.wfFrom, Bool.and_eq_true, decide_eq_true_eq]
        exact ⟨hm.1, ih (by omega) hm.2⟩

/-- A write keeps the canonical form. -/
theorem Memory.wf_write {m : Memory} (hm : m.wf = true) (a : Nat) (v : Byte) : (m.write a v).wf = true :=
  Memory.wfFrom_write (Nat.zero_le a) hm v

/-- A write below the bound keeps every address below it. -/
theorem Memory.below_write {n a : Nat} {m : Memory} (hm : m.below n = true) (h : a < n) (v : Byte) :
    (m.write a v).below n = true := by
  induction m with
  | nil => by_cases hv : v = Memory.unlisted <;> simp [Memory.write, Memory.below, hv, h]
  | cons x m ih =>
    obtain ⟨b, w⟩ := x
    simp only [Memory.below, List.all_cons, Bool.and_eq_true, decide_eq_true_eq] at hm
    have hd : (m.dropWhile (fun c => c.1 ≤ a)).all (fun c => decide (c.1 < n)) = true :=
      List.all_eq_true.mpr fun c hc => List.all_eq_true.mp hm.2 c ((List.dropWhile_sublist _).subset hc)
    simp only [Memory.write]
    split
    · split <;> simp [Memory.below, List.all_cons, hm, h]
    · split
      · split
        · exact hd
        · simp [Memory.below, List.all_cons, hm, h]
      · simp only [Memory.below, List.all_cons, Bool.and_eq_true, decide_eq_true_eq]
        exact ⟨hm.1, ih hm.2⟩

/-- Below its first address a canonical memory lists nothing. -/
theorem Memory.read_of_wfFrom {lo a : Nat} {m : Memory} (hm : Memory.wfFrom lo m = true) (h : a < lo) :
    m.read a = Memory.unlisted := by
  cases m with
  | nil => rfl
  | cons x m =>
    obtain ⟨b, w⟩ := x
    simp only [Memory.wfFrom, Bool.and_eq_true, decide_eq_true_eq] at hm
    simp only [Memory.read]
    rw [if_pos (by omega)]

theorem Memory.wfFrom_ofBytes (a : Nat) (vs : List Byte) : Memory.wfFrom a (Memory.ofBytes a vs) = true := by
  induction vs generalizing a with
  | nil => rfl
  | cons v vs ih =>
    simp only [Memory.ofBytes]
    split
    · exact Memory.wfFrom_mono (Nat.le_succ a) (ih (a + 1))
    · next hv => simp [Memory.wfFrom, hv, ih]

/-- A loaded memory reads as the bytes it was made of. -/
theorem Memory.read_ofBytes (a k : Nat) (vs : List Byte) (h : a ≤ k) :
    (Memory.ofBytes a vs).read k = vs.getD (k - a) Memory.unlisted := by
  induction vs generalizing a with
  | nil => rfl
  | cons v vs ih =>
    by_cases hk : k = a
    · subst hk
      rw [Nat.sub_self, List.getD_cons_zero]
      simp only [Memory.ofBytes]
      split
      · next hv => rw [hv]; exact Memory.read_of_wfFrom (Memory.wfFrom_ofBytes (k + 1) vs) (Nat.lt_succ_self k)
      · simp [Memory.read]
    · have e : k - a = k - (a + 1) + 1 := by omega
      rw [e, List.getD_cons_succ, ← ih (a + 1) (by omega)]
      simp only [Memory.ofBytes]
      split
      · rfl
      · simp only [Memory.read]; rw [if_neg (by omega), if_neg (by omega)]

/-- A loaded memory is canonical. -/
theorem Memory.wf_ofBytes (a : Nat) (vs : List Byte) : (Memory.ofBytes a vs).wf = true :=
  Memory.wfFrom_mono (Nat.zero_le a) (Memory.wfFrom_ofBytes a vs)

/-- A loaded memory lists only addresses below its end. -/
theorem Memory.below_ofBytes {a n : Nat} {vs : List Byte} (h : a + vs.length ≤ n) :
    (Memory.ofBytes a vs).below n = true := by
  induction vs generalizing a with
  | nil => rfl
  | cons v vs ih =>
    simp only [List.length_cons] at h
    have := ih (a := a + 1) (by omega)
    simp only [Memory.ofBytes]
    split
    · exact this
    · simp only [Memory.below, List.all_cons, Bool.and_eq_true, decide_eq_true_eq]
      exact ⟨by omega, this⟩

end Sys2Proof.Machine
end

