-- ==== Sys2Proof/Laws/State.lean ====
section
/-! SUPPORT. One lemma per field per update of the state, so that no later proof unfolds a record update. -/

namespace Sys2Proof.Machine

variable (s : State)

/-! ### setA -/
@[simp] theorem State.setA_cpu (v : Byte) : (s.setA v).cpu = { s.cpu with a := v } := rfl
@[simp] theorem State.setA_ram (v : Byte) : (s.setA v).ram = s.ram := rfl
@[simp] theorem State.setA_pad (v : Byte) : (s.setA v).pad = s.pad := rfl
@[simp] theorem State.setA_ppu (v : Byte) : (s.setA v).ppu = s.ppu := rfl
@[simp] theorem State.setA_apu (v : Byte) : (s.setA v).apu = s.apu := rfl
@[simp] theorem State.setA_cart (v : Byte) : (s.setA v).cart = s.cart := rfl
@[simp] theorem State.setA_params (v : Byte) : (s.setA v).params = s.params := rfl
@[simp] theorem State.setA_env (v : Byte) : (s.setA v).env = s.env := rfl
@[simp] theorem State.setA_slot (v : Byte) : (s.setA v).slot = s.slot := rfl

/-! ### setX -/
@[simp] theorem State.setX_cpu (v : Byte) : (s.setX v).cpu = { s.cpu with x := v } := rfl
@[simp] theorem State.setX_ram (v : Byte) : (s.setX v).ram = s.ram := rfl
@[simp] theorem State.setX_pad (v : Byte) : (s.setX v).pad = s.pad := rfl
@[simp] theorem State.setX_ppu (v : Byte) : (s.setX v).ppu = s.ppu := rfl
@[simp] theorem State.setX_apu (v : Byte) : (s.setX v).apu = s.apu := rfl
@[simp] theorem State.setX_cart (v : Byte) : (s.setX v).cart = s.cart := rfl
@[simp] theorem State.setX_params (v : Byte) : (s.setX v).params = s.params := rfl
@[simp] theorem State.setX_env (v : Byte) : (s.setX v).env = s.env := rfl
@[simp] theorem State.setX_slot (v : Byte) : (s.setX v).slot = s.slot := rfl

/-! ### setY -/
@[simp] theorem State.setY_cpu (v : Byte) : (s.setY v).cpu = { s.cpu with y := v } := rfl
@[simp] theorem State.setY_ram (v : Byte) : (s.setY v).ram = s.ram := rfl
@[simp] theorem State.setY_pad (v : Byte) : (s.setY v).pad = s.pad := rfl
@[simp] theorem State.setY_ppu (v : Byte) : (s.setY v).ppu = s.ppu := rfl
@[simp] theorem State.setY_apu (v : Byte) : (s.setY v).apu = s.apu := rfl
@[simp] theorem State.setY_cart (v : Byte) : (s.setY v).cart = s.cart := rfl
@[simp] theorem State.setY_params (v : Byte) : (s.setY v).params = s.params := rfl
@[simp] theorem State.setY_env (v : Byte) : (s.setY v).env = s.env := rfl
@[simp] theorem State.setY_slot (v : Byte) : (s.setY v).slot = s.slot := rfl

/-! ### setSp -/
@[simp] theorem State.setSp_cpu (v : Byte) : (s.setSp v).cpu = { s.cpu with sp := v } := rfl
@[simp] theorem State.setSp_ram (v : Byte) : (s.setSp v).ram = s.ram := rfl
@[simp] theorem State.setSp_pad (v : Byte) : (s.setSp v).pad = s.pad := rfl
@[simp] theorem State.setSp_ppu (v : Byte) : (s.setSp v).ppu = s.ppu := rfl
@[simp] theorem State.setSp_apu (v : Byte) : (s.setSp v).apu = s.apu := rfl
@[simp] theorem State.setSp_cart (v : Byte) : (s.setSp v).cart = s.cart := rfl
@[simp] theorem State.setSp_params (v : Byte) : (s.setSp v).params = s.params := rfl
@[simp] theorem State.setSp_env (v : Byte) : (s.setSp v).env = s.env := rfl
@[simp] theorem State.setSp_slot (v : Byte) : (s.setSp v).slot = s.slot := rfl

/-! ### setPc -/
@[simp] theorem State.setPc_cpu (w : Word) : (s.setPc w).cpu = { s.cpu with pc := w } := rfl
@[simp] theorem State.setPc_ram (w : Word) : (s.setPc w).ram = s.ram := rfl
@[simp] theorem State.setPc_pad (w : Word) : (s.setPc w).pad = s.pad := rfl
@[simp] theorem State.setPc_ppu (w : Word) : (s.setPc w).ppu = s.ppu := rfl
@[simp] theorem State.setPc_apu (w : Word) : (s.setPc w).apu = s.apu := rfl
@[simp] theorem State.setPc_cart (w : Word) : (s.setPc w).cart = s.cart := rfl
@[simp] theorem State.setPc_params (w : Word) : (s.setPc w).params = s.params := rfl
@[simp] theorem State.setPc_env (w : Word) : (s.setPc w).env = s.env := rfl
@[simp] theorem State.setPc_slot (w : Word) : (s.setPc w).slot = s.slot := rfl

/-! ### setP -/
@[simp] theorem State.setP_cpu (p : Flags) : (s.setP p).cpu = { s.cpu with p := p } := rfl
@[simp] theorem State.setP_ram (p : Flags) : (s.setP p).ram = s.ram := rfl
@[simp] theorem State.setP_pad (p : Flags) : (s.setP p).pad = s.pad := rfl
@[simp] theorem State.setP_ppu (p : Flags) : (s.setP p).ppu = s.ppu := rfl
@[simp] theorem State.setP_apu (p : Flags) : (s.setP p).apu = s.apu := rfl
@[simp] theorem State.setP_cart (p : Flags) : (s.setP p).cart = s.cart := rfl
@[simp] theorem State.setP_params (p : Flags) : (s.setP p).params = s.params := rfl
@[simp] theorem State.setP_env (p : Flags) : (s.setP p).env = s.env := rfl
@[simp] theorem State.setP_slot (p : Flags) : (s.setP p).slot = s.slot := rfl

/-! ### setOpenBus -/
@[simp] theorem State.setOpenBus_cpu (v : Byte) : (s.setOpenBus v).cpu = { s.cpu with openBus := v } := rfl
@[simp] theorem State.setOpenBus_ram (v : Byte) : (s.setOpenBus v).ram = s.ram := rfl
@[simp] theorem State.setOpenBus_pad (v : Byte) : (s.setOpenBus v).pad = s.pad := rfl
@[simp] theorem State.setOpenBus_ppu (v : Byte) : (s.setOpenBus v).ppu = s.ppu := rfl
@[simp] theorem State.setOpenBus_apu (v : Byte) : (s.setOpenBus v).apu = s.apu := rfl
@[simp] theorem State.setOpenBus_cart (v : Byte) : (s.setOpenBus v).cart = s.cart := rfl
@[simp] theorem State.setOpenBus_params (v : Byte) : (s.setOpenBus v).params = s.params := rfl
@[simp] theorem State.setOpenBus_env (v : Byte) : (s.setOpenBus v).env = s.env := rfl
@[simp] theorem State.setOpenBus_slot (v : Byte) : (s.setOpenBus v).slot = s.slot := rfl

/-! ### setNmiPending -/
@[simp] theorem State.setNmiPending_cpu (b : Bool) : (s.setNmiPending b).cpu = { s.cpu with nmiPending := b } := rfl
@[simp] theorem State.setNmiPending_ram (b : Bool) : (s.setNmiPending b).ram = s.ram := rfl
@[simp] theorem State.setNmiPending_pad (b : Bool) : (s.setNmiPending b).pad = s.pad := rfl
@[simp] theorem State.setNmiPending_ppu (b : Bool) : (s.setNmiPending b).ppu = s.ppu := rfl
@[simp] theorem State.setNmiPending_apu (b : Bool) : (s.setNmiPending b).apu = s.apu := rfl
@[simp] theorem State.setNmiPending_cart (b : Bool) : (s.setNmiPending b).cart = s.cart := rfl
@[simp] theorem State.setNmiPending_params (b : Bool) : (s.setNmiPending b).params = s.params := rfl
@[simp] theorem State.setNmiPending_env (b : Bool) : (s.setNmiPending b).env = s.env := rfl
@[simp] theorem State.setNmiPending_slot (b : Bool) : (s.setNmiPending b).slot = s.slot := rfl

/-! ### setNmiLinePrev -/
@[simp] theorem State.setNmiLinePrev_cpu (b : Bool) : (s.setNmiLinePrev b).cpu = { s.cpu with nmiLinePrev := b } := rfl
@[simp] theorem State.setNmiLinePrev_ram (b : Bool) : (s.setNmiLinePrev b).ram = s.ram := rfl
@[simp] theorem State.setNmiLinePrev_pad (b : Bool) : (s.setNmiLinePrev b).pad = s.pad := rfl
@[simp] theorem State.setNmiLinePrev_ppu (b : Bool) : (s.setNmiLinePrev b).ppu = s.ppu := rfl
@[simp] theorem State.setNmiLinePrev_apu (b : Bool) : (s.setNmiLinePrev b).apu = s.apu := rfl
@[simp] theorem State.setNmiLinePrev_cart (b : Bool) : (s.setNmiLinePrev b).cart = s.cart := rfl
@[simp] theorem State.setNmiLinePrev_params (b : Bool) : (s.setNmiLinePrev b).params = s.params := rfl
@[simp] theorem State.setNmiLinePrev_env (b : Bool) : (s.setNmiLinePrev b).env = s.env := rfl
@[simp] theorem State.setNmiLinePrev_slot (b : Bool) : (s.setNmiLinePrev b).slot = s.slot := rfl

/-! ### addStall -/
@[simp] theorem State.addStall_cpu (n : Word) : (s.addStall n).cpu = { s.cpu with stallRemaining := s.cpu.stallRemaining + n } := rfl
@[simp] theorem State.addStall_ram (n : Word) : (s.addStall n).ram = s.ram := rfl
@[simp] theorem State.addStall_pad (n : Word) : (s.addStall n).pad = s.pad := rfl
@[simp] theorem State.addStall_ppu (n : Word) : (s.addStall n).ppu = s.ppu := rfl
@[simp] theorem State.addStall_apu (n : Word) : (s.addStall n).apu = s.apu := rfl
@[simp] theorem State.addStall_cart (n : Word) : (s.addStall n).cart = s.cart := rfl
@[simp] theorem State.addStall_params (n : Word) : (s.addStall n).params = s.params := rfl
@[simp] theorem State.addStall_env (n : Word) : (s.addStall n).env = s.env := rfl
@[simp] theorem State.addStall_slot (n : Word) : (s.addStall n).slot = s.slot := rfl

/-! ### setCycles -/
@[simp] theorem State.setCycles_cpu (n : Nat) : (s.setCycles n).cpu = { s.cpu with cyclesRemaining := BitVec.ofNat 8 (n - 1) } := rfl
@[simp] theorem State.setCycles_ram (n : Nat) : (s.setCycles n).ram = s.ram := rfl
@[simp] theorem State.setCycles_pad (n : Nat) : (s.setCycles n).pad = s.pad := rfl
@[simp] theorem State.setCycles_ppu (n : Nat) : (s.setCycles n).ppu = s.ppu := rfl
@[simp] theorem State.setCycles_apu (n : Nat) : (s.setCycles n).apu = s.apu := rfl
@[simp] theorem State.setCycles_cart (n : Nat) : (s.setCycles n).cart = s.cart := rfl
@[simp] theorem State.setCycles_params (n : Nat) : (s.setCycles n).params = s.params := rfl
@[simp] theorem State.setCycles_env (n : Nat) : (s.setCycles n).env = s.env := rfl
@[simp] theorem State.setCycles_slot (n : Nat) : (s.setCycles n).slot = s.slot := rfl

/-! ### toggleOdd -/
@[simp] theorem State.toggleOdd_cpu : (s.toggleOdd).cpu = { s.cpu with oddCycle := !s.cpu.oddCycle } := rfl
@[simp] theorem State.toggleOdd_ram : (s.toggleOdd).ram = s.ram := rfl
@[simp] theorem State.toggleOdd_pad : (s.toggleOdd).pad = s.pad := rfl
@[simp] theorem State.toggleOdd_ppu : (s.toggleOdd).ppu = s.ppu := rfl
@[simp] theorem State.toggleOdd_apu : (s.toggleOdd).apu = s.apu := rfl
@[simp] theorem State.toggleOdd_cart : (s.toggleOdd).cart = s.cart := rfl
@[simp] theorem State.toggleOdd_params : (s.toggleOdd).params = s.params := rfl
@[simp] theorem State.toggleOdd_env : (s.toggleOdd).env = s.env := rfl
@[simp] theorem State.toggleOdd_slot : (s.toggleOdd).slot = s.slot := rfl

/-! ### countStall -/
@[simp] theorem State.countStall_cpu : (s.countStall).cpu = { s.cpu with stallRemaining := s.cpu.stallRemaining - 1 } := rfl
@[simp] theorem State.countStall_ram : (s.countStall).ram = s.ram := rfl
@[simp] theorem State.countStall_pad : (s.countStall).pad = s.pad := rfl
@[simp] theorem State.countStall_ppu : (s.countStall).ppu = s.ppu := rfl
@[simp] theorem State.countStall_apu : (s.countStall).apu = s.apu := rfl
@[simp] theorem State.countStall_cart : (s.countStall).cart = s.cart := rfl
@[simp] theorem State.countStall_params : (s.countStall).params = s.params := rfl
@[simp] theorem State.countStall_env : (s.countStall).env = s.env := rfl
@[simp] theorem State.countStall_slot : (s.countStall).slot = s.slot := rfl

/-! ### countCycle -/
@[simp] theorem State.countCycle_cpu : (s.countCycle).cpu = { s.cpu with cyclesRemaining := s.cpu.cyclesRemaining - 1 } := rfl
@[simp] theorem State.countCycle_ram : (s.countCycle).ram = s.ram := rfl
@[simp] theorem State.countCycle_pad : (s.countCycle).pad = s.pad := rfl
@[simp] theorem State.countCycle_ppu : (s.countCycle).ppu = s.ppu := rfl
@[simp] theorem State.countCycle_apu : (s.countCycle).apu = s.apu := rfl
@[simp] theorem State.countCycle_cart : (s.countCycle).cart = s.cart := rfl
@[simp] theorem State.countCycle_params : (s.countCycle).params = s.params := rfl
@[simp] theorem State.countCycle_env : (s.countCycle).env = s.env := rfl
@[simp] theorem State.countCycle_slot : (s.countCycle).slot = s.slot := rfl

/-! ### setRam -/
@[simp] theorem State.setRam_cpu (x : Memory) : (s.setRam x).cpu = s.cpu := rfl
@[simp] theorem State.setRam_ram (x : Memory) : (s.setRam x).ram = x := rfl
@[simp] theorem State.setRam_pad (x : Memory) : (s.setRam x).pad = s.pad := rfl
@[simp] theorem State.setRam_ppu (x : Memory) : (s.setRam x).ppu = s.ppu := rfl
@[simp] theorem State.setRam_apu (x : Memory) : (s.setRam x).apu = s.apu := rfl
@[simp] theorem State.setRam_cart (x : Memory) : (s.setRam x).cart = s.cart := rfl
@[simp] theorem State.setRam_params (x : Memory) : (s.setRam x).params = s.params := rfl
@[simp] theorem State.setRam_env (x : Memory) : (s.setRam x).env = s.env := rfl
@[simp] theorem State.setRam_slot (x : Memory) : (s.setRam x).slot = s.slot := rfl

/-! ### setPad -/
@[simp] theorem State.setPad_cpu (x : Pad) : (s.setPad x).cpu = s.cpu := rfl
@[simp] theorem State.setPad_ram (x : Pad) : (s.setPad x).ram = s.ram := rfl
@[simp] theorem State.setPad_pad (x : Pad) : (s.setPad x).pad = x := rfl
@[simp] theorem State.setPad_ppu (x : Pad) : (s.setPad x).ppu = s.ppu := rfl
@[simp] theorem State.setPad_apu (x : Pad) : (s.setPad x).apu = s.apu := rfl
@[simp] theorem State.setPad_cart (x : Pad) : (s.setPad x).cart = s.cart := rfl
@[simp] theorem State.setPad_params (x : Pad) : (s.setPad x).params = s.params := rfl
@[simp] theorem State.setPad_env (x : Pad) : (s.setPad x).env = s.env := rfl
@[simp] theorem State.setPad_slot (x : Pad) : (s.setPad x).slot = s.slot := rfl

/-! ### setPpu -/
@[simp] theorem State.setPpu_cpu (x : Ppu) : (s.setPpu x).cpu = s.cpu := rfl
@[simp] theorem State.setPpu_ram (x : Ppu) : (s.setPpu x).ram = s.ram := rfl
@[simp] theorem State.setPpu_pad (x : Ppu) : (s.setPpu x).pad = s.pad := rfl
@[simp] theorem State.setPpu_ppu (x : Ppu) : (s.setPpu x).ppu = x := rfl
@[simp] theorem State.setPpu_apu (x : Ppu) : (s.setPpu x).apu = s.apu := rfl
@[simp] theorem State.setPpu_cart (x : Ppu) : (s.setPpu x).cart = s.cart := rfl
@[simp] theorem State.setPpu_params (x : Ppu) : (s.setPpu x).params = s.params := rfl
@[simp] theorem State.setPpu_env (x : Ppu) : (s.setPpu x).env = s.env := rfl
@[simp] theorem State.setPpu_slot (x : Ppu) : (s.setPpu x).slot = s.slot := rfl

/-! ### setApu -/
@[simp] theorem State.setApu_cpu (x : Apu) : (s.setApu x).cpu = s.cpu := rfl
@[simp] theorem State.setApu_ram (x : Apu) : (s.setApu x).ram = s.ram := rfl
@[simp] theorem State.setApu_pad (x : Apu) : (s.setApu x).pad = s.pad := rfl
@[simp] theorem State.setApu_ppu (x : Apu) : (s.setApu x).ppu = s.ppu := rfl
@[simp] theorem State.setApu_apu (x : Apu) : (s.setApu x).apu = x := rfl
@[simp] theorem State.setApu_cart (x : Apu) : (s.setApu x).cart = s.cart := rfl
@[simp] theorem State.setApu_params (x : Apu) : (s.setApu x).params = s.params := rfl
@[simp] theorem State.setApu_env (x : Apu) : (s.setApu x).env = s.env := rfl
@[simp] theorem State.setApu_slot (x : Apu) : (s.setApu x).slot = s.slot := rfl

/-! ### setCart -/
@[simp] theorem State.setCart_cpu (x : Mapper) : (s.setCart x).cpu = s.cpu := rfl
@[simp] theorem State.setCart_ram (x : Mapper) : (s.setCart x).ram = s.ram := rfl
@[simp] theorem State.setCart_pad (x : Mapper) : (s.setCart x).pad = s.pad := rfl
@[simp] theorem State.setCart_ppu (x : Mapper) : (s.setCart x).ppu = s.ppu := rfl
@[simp] theorem State.setCart_apu (x : Mapper) : (s.setCart x).apu = s.apu := rfl
@[simp] theorem State.setCart_cart (x : Mapper) : (s.setCart x).cart = x := rfl
@[simp] theorem State.setCart_params (x : Mapper) : (s.setCart x).params = s.params := rfl
@[simp] theorem State.setCart_env (x : Mapper) : (s.setCart x).env = s.env := rfl
@[simp] theorem State.setCart_slot (x : Mapper) : (s.setCart x).slot = s.slot := rfl

/-! ### setEnv -/
@[simp] theorem State.setEnv_cpu (x : Env) : (s.setEnv x).cpu = s.cpu := rfl
@[simp] theorem State.setEnv_ram (x : Env) : (s.setEnv x).ram = s.ram := rfl
@[simp] theorem State.setEnv_pad (x : Env) : (s.setEnv x).pad = s.pad := rfl
@[simp] theorem State.setEnv_ppu (x : Env) : (s.setEnv x).ppu = s.ppu := rfl
@[simp] theorem State.setEnv_apu (x : Env) : (s.setEnv x).apu = s.apu := rfl
@[simp] theorem State.setEnv_cart (x : Env) : (s.setEnv x).cart = s.cart := rfl
@[simp] theorem State.setEnv_params (x : Env) : (s.setEnv x).params = s.params := rfl
@[simp] theorem State.setEnv_env (x : Env) : (s.setEnv x).env = x := rfl
@[simp] theorem State.setEnv_slot (x : Env) : (s.setEnv x).slot = s.slot := rfl

/-! ### setSlot -/
@[simp] theorem State.setSlot_cpu (x : Option Snapshot) : (s.setSlot x).cpu = s.cpu := rfl
@[simp] theorem State.setSlot_ram (x : Option Snapshot) : (s.setSlot x).ram = s.ram := rfl
@[simp] theorem State.setSlot_pad (x : Option Snapshot) : (s.setSlot x).pad = s.pad := rfl
@[simp] theorem State.setSlot_ppu (x : Option Snapshot) : (s.setSlot x).ppu = s.ppu := rfl
@[simp] theorem State.setSlot_apu (x : Option Snapshot) : (s.setSlot x).apu = s.apu := rfl
@[simp] theorem State.setSlot_cart (x : Option Snapshot) : (s.setSlot x).cart = s.cart := rfl
@[simp] theorem State.setSlot_params (x : Option Snapshot) : (s.setSlot x).params = s.params := rfl
@[simp] theorem State.setSlot_env (x : Option Snapshot) : (s.setSlot x).env = s.env := rfl
@[simp] theorem State.setSlot_slot (x : Option Snapshot) : (s.setSlot x).slot = x := rfl

end Sys2Proof.Machine
end

