-- ==== Sys2Proof/Laws/Bus.lean ====
section
/-! SUPPORT. What an access on the CPU's bus can do: the decoder by ranges, everything a read leaves, everything a write leaves,
and the exact effect where the target is internal RAM. -/

namespace Sys2Proof.Machine

/-! ### The decoder -/

theorem ramIndex (a : Word) : (a &&& 0x07FF).toNat = a.toNat % 2048 := by
  rw [BitVec.toNat_and]
  exact Nat.and_two_pow_sub_one_eq_mod a.toNat 11

/-- The RAM window (20_memory.md R52). -/
theorem target_ram {a : Word} (h : a.toNat < 0x2000) : target a = .ram (a.toNat % 2048) := by
  rw [target, if_pos (show a < 0x2000 from h), ramIndex]

/-- The PPU window. -/
theorem target_ppu {a : Word} (h : 0x2000 ≤ a.toNat) (h' : a.toNat < 0x4000) :
    target a = .ppu (a.extractLsb' 0 3) := by
  rw [target, if_neg (show ¬ a < 0x2000 from Nat.not_lt.mpr h), if_pos (show a < 0x4000 from h')]

/-- The cartridge window. -/
theorem target_cart {a : Word} (h : 0x4020 ≤ a.toNat) : target a = .cart := by
  have lt : ∀ n : Nat, n ≤ 0x4020 → ¬ a.toNat < n := fun n hn => by omega
  have ne : ∀ w : Word, w.toNat < 0x4020 → a ≠ w := fun w hw e => by subst e; omega
  unfold target
  rw [if_neg (show ¬ a < 0x2000 from lt 0x2000 (by decide)), if_neg (show ¬ a < 0x4000 from lt 0x4000 (by decide)),
    if_neg (show ¬ a < 0x4014 from lt 0x4014 (by decide)), if_neg (ne _ (by decide)), if_neg (ne _ (by decide)),
    if_neg (ne _ (by decide)), if_neg (ne _ (by decide)), if_neg (show ¬ a < 0x4020 from lt 0x4020 (by decide))]

/-- The addresses whose writes go to the APU. -/
theorem target_apu {a : Word}
    (h : 0x4000 ≤ a.toNat ∧ a.toNat < 0x4014 ∨ a.toNat = 0x4015 ∨ a.toNat = 0x4017) :
    target a = .apuChannel ∨ target a = .apuStatus ∨ target a = .pad2 := by
  rcases h with ⟨h1, h2⟩ | h | h
  · left
    rw [target, if_neg (show ¬ a < 0x2000 from fun x => absurd (show a.toNat < 0x2000 from x) (by omega)),
      if_neg (show ¬ a < 0x4000 from Nat.not_lt.mpr h1), if_pos (show a < 0x4014 from h2)]
  · rw [show a = 0x4015 from BitVec.eq_of_toNat_eq h]; exact .inr (.inl rfl)
  · rw [show a = 0x4017 from BitVec.eq_of_toNat_eq h]; exact .inr (.inr rfl)

/-- A RAM target is below 2048 and comes from the RAM window. -/
theorem target_eq_ram {a : Word} {k : Nat} (h : target a = .ram k) : a.toNat < 0x2000 ∧ k = a.toNat % 2048 := by
  by_cases ha : a.toNat < 0x2000
  · rw [target_ram ha] at h
    exact ⟨ha, (Target.ram.inj h).symm⟩
  · rw [target, if_neg (show ¬ a < 0x2000 from ha)] at h
    repeat' split at h
    all_goals cases h

/-! ### Reads -/

/-- Everything a read of a target can change: the PPU, the APU, the latches and the free counter. -/
theorem targetRead_frame (a : Word) (s : State) :
    (targetRead a s).2.cpu = s.cpu ∧ (targetRead a s).2.ram = s.ram ∧ (targetRead a s).2.cart = s.cart ∧
      (targetRead a s).2.params = s.params ∧ (targetRead a s).2.slot = s.slot ∧
      (targetRead a s).2.env.ppu = s.env.ppu ∧ (targetRead a s).2.env.apu = s.env.apu := by
  unfold targetRead
  split <;> simp [Env.drawn]

/-- The CPU after a read: only the latch, which holds the byte read (R54). -/
@[simp] theorem busRead_cpu (a : Word) (s : State) :
    (busRead a s).2.cpu = { s.cpu with openBus := (busRead a s).1 } := by
  simp [busRead, (targetRead_frame a s).1]

@[simp] theorem busRead_ram (a : Word) (s : State) : (busRead a s).2.ram = s.ram := by
  simp [busRead, (targetRead_frame a s).2.1]

@[simp] theorem busRead_cart (a : Word) (s : State) : (busRead a s).2.cart = s.cart := by
  simp [busRead, (targetRead_frame a s).2.2.1]

@[simp] theorem busRead_params (a : Word) (s : State) : (busRead a s).2.params = s.params := by
  simp [busRead, (targetRead_frame a s).2.2.2.1]

@[simp] theorem busRead_slot (a : Word) (s : State) : (busRead a s).2.slot = s.slot := by
  simp [busRead, (targetRead_frame a s).2.2.2.2.1]

@[simp] theorem busRead_env_ppu (a : Word) (s : State) : (busRead a s).2.env.ppu = s.env.ppu := by
  simp [busRead, (targetRead_frame a s).2.2.2.2.2.1]

@[simp] theorem busRead_env_apu (a : Word) (s : State) : (busRead a s).2.env.apu = s.env.apu := by
  simp [busRead, (targetRead_frame a s).2.2.2.2.2.2]

/-- The PPU after a read: unchanged outside its window, else as the port read leaves it. -/
theorem busRead_ppu (a : Word) (s : State) :
    (busRead a s).2.ppu = match target a with
      | .ppu port => s.ppu.afterRead port
      | _ => s.ppu := by
  simp only [busRead, targetRead, State.setOpenBus_ppu]
  cases target a <;> simp

/-- The PPU's position and control register after a read. -/
theorem busRead_ppu_position (a : Word) (s : State) :
    (busRead a s).2.ppu.scanline = s.ppu.scanline ∧ (busRead a s).2.ppu.dot = s.ppu.dot ∧
      (busRead a s).2.ppu.ctrl = s.ppu.ctrl ∧ ((busRead a s).2.ppu.vblank = true → s.ppu.vblank = true) := by
  rw [busRead_ppu]
  split <;> simp [Ppu.afterRead]

/-- A read in the RAM window: the byte, and only the latch changes. -/
theorem busRead_of_ram {a : Word} (h : a.toNat < 0x2000) (s : State) :
    busRead a s = (s.ram.read (a.toNat % 2048), s.setOpenBus (s.ram.read (a.toNat % 2048))) := by
  simp only [busRead, targetRead, target_ram h]

/-- A read in the cartridge window: the mapper's byte, and only the latch changes. -/
theorem busRead_of_cart {a : Word} (h : 0x4020 ≤ a.toNat) (s : State) :
    busRead a s = (s.cart.cpuRead a s.cpu.openBus, s.setOpenBus (s.cart.cpuRead a s.cpu.openBus)) := by
  simp only [busRead, targetRead, target_cart h]

/-! ### Sprite DMA -/

/-- Everything a sprite DMA's copying can change, as for a read. -/
theorem oamCopies_frame (v : Byte) (n : Nat) (s : State) :
    (oamCopies v n s).cpu = { s.cpu with openBus := (oamCopies v n s).cpu.openBus } ∧
      (oamCopies v n s).ram = s.ram ∧ (oamCopies v n s).cart = s.cart ∧ (oamCopies v n s).params = s.params ∧
      (oamCopies v n s).slot = s.slot ∧ (oamCopies v n s).env.ppu = s.env.ppu ∧
      (oamCopies v n s).env.apu = s.env.apu ∧ (oamCopies v n s).ppu.scanline = s.ppu.scanline ∧
      (oamCopies v n s).ppu.dot = s.ppu.dot ∧ (oamCopies v n s).ppu.ctrl = s.ppu.ctrl ∧
      ((oamCopies v n s).ppu.vblank = true → s.ppu.vblank = true) := by
  induction n generalizing s with
  | zero => simp [oamCopies]
  | succ n ih =>
    obtain ⟨h1, h2, h3, h4, h5, h6, h7, h8, h9, h10, h11⟩ :=
      ih (oamCopy (mkWord v (BitVec.ofNat 8 (255 - n))) s)
    obtain ⟨p1, p2, p3, p4⟩ := busRead_ppu_position (mkWord v (BitVec.ofNat 8 (255 - n))) s
    simp only [oamCopies]
    refine ⟨?_, ?_, ?_, ?_, ?_, ?_, ?_, ?_, ?_, ?_, ?_⟩
    · rw [h1]; simp [oamCopy]
    · rw [h2]; simp [oamCopy]
    · rw [h3]; simp [oamCopy]
    · rw [h4]; simp [oamCopy]
    · rw [h5]; simp [oamCopy]
    · rw [h6]; simp [oamCopy]
    · rw [h7]; simp [oamCopy]
    · rw [h8]; simpa [oamCopy, Ppu.afterWrite] using p1
    · rw [h9]; simpa [oamCopy, Ppu.afterWrite] using p2
    · rw [h10]; simpa [oamCopy, Ppu.afterWrite] using p3
    · intro h; exact p4 (by simpa [oamCopy, Ppu.afterWrite] using h11 h)

/-- Everything a write of 0x4014 can change, as for a read, and the stall counter. -/
theorem spriteDma_frame (v : Byte) (s : State) :
    (spriteDma v s).cpu = { s.cpu with
        openBus := (spriteDma v s).cpu.openBus, stallRemaining := (spriteDma v s).cpu.stallRemaining } ∧
      (spriteDma v s).ram = s.ram ∧ (spriteDma v s).cart = s.cart ∧ (spriteDma v s).params = s.params ∧
      (spriteDma v s).slot = s.slot ∧ (spriteDma v s).env.ppu = s.env.ppu ∧
      (spriteDma v s).env.apu = s.env.apu ∧ (spriteDma v s).ppu.scanline = s.ppu.scanline ∧
      (spriteDma v s).ppu.dot = s.ppu.dot ∧ (spriteDma v s).ppu.ctrl = s.ppu.ctrl ∧
      ((spriteDma v s).ppu.vblank = true → s.ppu.vblank = true) := by
  unfold spriteDma
  split
  · obtain ⟨h1, h2, h3, h4, h5, h6, h7, h8, h9, h10, h11⟩ := oamCopies_frame v 256 s
    refine ⟨?_, h2, h3, h4, h5, h6, h7, h8, h9, h10, h11⟩
    rw [State.addStall_cpu, h1]
  · simp

/-! ### Writes -/

/-- Everything a write can change: of the CPU only the latch and the stall counter; RAM, the latches, the devices and the
cartridge; never the parameters, the slot or the device inputs. -/
theorem busWrite_frame (a : Word) (v : Byte) (s : State) :
    (busWrite a v s).cpu = { s.cpu with
        openBus := (busWrite a v s).cpu.openBus, stallRemaining := (busWrite a v s).cpu.stallRemaining } ∧
      (busWrite a v s).params = s.params ∧ (busWrite a v s).slot = s.slot ∧
      (busWrite a v s).env.ppu = s.env.ppu ∧ (busWrite a v s).env.apu = s.env.apu ∧
      (busWrite a v s).ppu.scanline = s.ppu.scanline ∧ (busWrite a v s).ppu.dot = s.ppu.dot ∧
      ((busWrite a v s).ppu.vblank = true → s.ppu.vblank = true) := by
  unfold busWrite targetWrite
  cases target a
  case oamDma =>
    obtain ⟨h1, _, _, h4, h5, h6, h7, h8, h9, _, h11⟩ := spriteDma_frame v (s.setOpenBus v)
    exact ⟨h1, h4, h5, h6, h7, h8, h9, h11⟩
  all_goals simp [Ppu.afterWrite]

/-- RAM after a write: one byte in the RAM window, nothing elsewhere (R55, R57). -/
theorem busWrite_ram (a : Word) (v : Byte) (s : State) :
    (busWrite a v s).ram = if a.toNat < 0x2000 then s.ram.write (a.toNat % 2048) v else s.ram := by
  by_cases ha : a.toNat < 0x2000
  · simp [busWrite, targetWrite, target_ram ha, ha]
  · rw [if_neg ha, busWrite, targetWrite]
    cases ht : target a
    case ram k => exact absurd (target_eq_ram ht).1 ha
    case oamDma => exact (spriteDma_frame v (s.setOpenBus v)).2.1
    all_goals simp

/-- The cartridge after a write: the mapper's write in the cartridge window, nothing elsewhere. -/
theorem busWrite_cart (a : Word) (v : Byte) (s : State) :
    (busWrite a v s).cart = if target a = .cart then s.cart.cpuWrite a v else s.cart := by
  rw [busWrite, targetWrite]
  cases ht : target a
  case oamDma => simpa using (spriteDma_frame v (s.setOpenBus v)).2.2.1
  all_goals simp

/-- A write in the RAM window: the byte and the latch. -/
theorem busWrite_of_ram {a : Word} (h : a.toNat < 0x2000) (v : Byte) (s : State) :
    busWrite a v s = (s.setOpenBus v).setRam (s.ram.write (a.toNat % 2048) v) := by
  simp [busWrite, targetWrite, target_ram h]

/-- A write to a PPU port. -/
theorem busWrite_of_ppu {a : Word} (h : 0x2000 ≤ a.toNat) (h' : a.toNat < 0x4000) (v : Byte) (s : State) :
    busWrite a v s = (s.setOpenBus v).setPpu (s.ppu.afterWrite (a.extractLsb' 0 3) v) := by
  simp only [busWrite, targetWrite, target_ppu h h', State.setOpenBus_ppu]

/-- A write to an APU register. -/
theorem busWrite_of_apu {a : Word}
    (h : 0x4000 ≤ a.toNat ∧ a.toNat < 0x4014 ∨ a.toNat = 0x4015 ∨ a.toNat = 0x4017) (v : Byte) (s : State) :
    busWrite a v s = (s.setOpenBus v).setApu (s.apu.afterWrite a v) := by
  rcases target_apu h with h | h | h <;> simp only [busWrite, targetWrite, h, State.setOpenBus_apu]

/-- A write in the cartridge window is the mapper's. -/
theorem busWrite_of_cart {a : Word} (h : 0x4020 ≤ a.toNat) (v : Byte) (s : State) :
    busWrite a v s = (s.setOpenBus v).setCart (s.cart.cpuWrite a v) := by
  simp only [busWrite, targetWrite, target_cart h, State.setOpenBus_cart]

@[simp] theorem busWrite_params (a : Word) (v : Byte) (s : State) : (busWrite a v s).params = s.params :=
  (busWrite_frame a v s).2.1

@[simp] theorem busWrite_slot (a : Word) (v : Byte) (s : State) : (busWrite a v s).slot = s.slot :=
  (busWrite_frame a v s).2.2.1

/-! ### The mapper's write -/

/-- A CPU write changes only the registers of the mapper: ROM is immutable (R57, R65). -/
theorem Mapper.cpuWrite_frame (m : Mapper) (a : Word) (v : Byte) :
    (m.cpuWrite a v).prgBanks = m.prgBanks ∧ (m.cpuWrite a v).chrBanks = m.chrBanks ∧
      (m.cpuWrite a v).headerMirroring = m.headerMirroring ∧ (m.cpuWrite a v).prgRom = m.prgRom ∧
      (m.cpuWrite a v).chr = m.chr := by
  unfold Mapper.cpuWrite
  repeat' split
  all_goals simp

end Sys2Proof.Machine
end

