-- ==== Sys2Proof/Laws/Mapper.lean ====
section
/-! SUPPORT. What the operations of a cartridge can do: where a CPU read comes from, and that no write, hook or restore changes
the ROM or breaks the cartridge's validity (20_memory.md R75 to R102). -/

namespace Sys2Proof.Machine

/-! ### The bounds of the windows, in numbers -/

theorem word_lt_8000 (a : Word) : a < 0x8000 ↔ a.toNat < 0x8000 := Iff.rfl
theorem word_lt_A000 (a : Word) : a < 0xA000 ↔ a.toNat < 0xA000 := Iff.rfl
theorem word_lt_C000 (a : Word) : a < 0xC000 ↔ a.toNat < 0xC000 := Iff.rfl
theorem word_lt_E000 (a : Word) : a < 0xE000 ↔ a.toNat < 0xE000 := Iff.rfl
theorem chr_lt_1000 (a : BitVec 13) : a < 0x1000 ↔ a.toNat < 0x1000 := Iff.rfl

/-! ### The CPU side -/

/-- Where the translation gives an offset, a read returns the PRG byte there. -/
theorem Mapper.cpuRead_of_offset {m : Mapper} {a : Word} {k : Nat} (h : m.prgOffset a = some k) (ob : Byte) :
    m.cpuRead a ob = m.prgRom.read k := by
  unfold Mapper.cpuRead
  split
  · next calls hc =>
    unfold Mapper.prgOffset at h
    rw [hc] at h
    split at h <;> cases h
  · rw [h]

/-- Below 0x8000 a chip with a known translation drives nothing. -/
theorem Mapper.cpuRead_low {m : Mapper} {a : Word} (hm : ∀ calls, m.chip ≠ .mmc3 calls) (h : a.toNat < 0x8000)
    (ob : Byte) : m.cpuRead a ob = ob := by
  unfold Mapper.cpuRead
  split
  · next calls hc => exact absurd hc (hm calls)
  · rw [Mapper.prgOffset, if_pos ((word_lt_8000 a).mpr h)]

/-- At or above 0x8000 the offset is the chip's. -/
theorem Mapper.prgOffset_high {a : Word} (h : ¬ a.toNat < 0x8000) (m : Mapper) :
    m.prgOffset a = match m.chip with
      | .nrom | .cnrom _ => some ((a.toNat - 0x8000) % m.prgSize)
      | .mmc1 r => some (r.prgOffset m.prgSize a.toNat)
      | .uxrom bank =>
        some (if a.toNat < 0xC000 then (bank.toNat * 0x4000 + (a.toNat - 0x8000)) % m.prgSize
          else m.prgSize - 0x4000 + (a.toNat - 0xC000))
      | .mmc3 _ => none := by
  rw [Mapper.prgOffset, if_neg (fun hc => h ((word_lt_8000 a).mp hc))]
  cases m.chip <;> simp only [word_lt_C000]

/-! ### ROM is immutable (R57, R65, R76) -/

/-- What no operation of a cartridge changes. -/
def Mapper.SameRom (m m' : Mapper) : Prop :=
  m'.prgRom = m.prgRom ∧ m'.prgBanks = m.prgBanks ∧ m'.chrBanks = m.chrBanks ∧
    m'.headerMirroring = m.headerMirroring ∧ (m.chrIsRam = false → m'.chr = m.chr)

theorem Mapper.SameRom.refl (m : Mapper) : m.SameRom m := ⟨rfl, rfl, rfl, rfl, fun _ => rfl⟩

theorem Mapper.SameRom.trans {m m' m'' : Mapper} (h : m.SameRom m') (h' : m'.SameRom m'') : m.SameRom m'' := by
  obtain ⟨a1, a2, a3, a4, a5⟩ := h
  obtain ⟨b1, b2, b3, b4, b5⟩ := h'
  refine ⟨b1.trans a1, b2.trans a2, b3.trans a3, b4.trans a4, fun hc => (b5 ?_).trans (a5 hc)⟩
  simpa [Mapper.chrIsRam, a3] using hc

theorem Mapper.sameRom_cpuWrite (m : Mapper) (a : Word) (v : Byte) : m.SameRom (m.cpuWrite a v) := by
  obtain ⟨h1, h2, h3, h4, h5⟩ := m.cpuWrite_frame a v
  exact ⟨h4, h1, h2, h3, fun _ => h5⟩

theorem Mapper.sameRom_ppuWrite (m : Mapper) (a : BitVec 13) (v : Byte) : m.SameRom (m.ppuWrite a v) := by
  unfold Mapper.ppuWrite
  split
  · exact ⟨rfl, rfl, rfl, rfl, fun _ => rfl⟩
  · split
    · next hc => exact ⟨rfl, rfl, rfl, rfl, fun h => absurd hc (by simp [h])⟩
    · exact Mapper.SameRom.refl m

theorem Mapper.sameRom_scanlineClock (m : Mapper) : m.SameRom m.scanlineClock := by
  unfold Mapper.scanlineClock
  split
  · exact ⟨rfl, rfl, rfl, rfl, fun _ => rfl⟩
  · exact Mapper.SameRom.refl m

theorem Mapper.sameRom_act (m : Mapper) (c : PpuAct) : m.SameRom (c.onCart m) := by
  cases c with
  | chrWrite a v => exact m.sameRom_ppuWrite a v
  | scanlineClock => exact m.sameRom_scanlineClock

/-- What every act of the PPU block keeps, a step of the block keeps. -/
theorem PpuTick.onCart_induction {P : Mapper → Prop} (hact : ∀ m c, P m → P (PpuAct.onCart m c)) (t : PpuTick) {m : Mapper}
    (h : P m) : P (t.onCart m) :=
  List.foldlRecOn t.acts PpuAct.onCart h fun m hm c _ => hact m c hm

/-- All that the PPU block does to the cartridge in a step. -/
theorem Mapper.sameRom_onCart (t : PpuTick) (m : Mapper) : m.SameRom (t.onCart m) :=
  PpuTick.onCart_induction (P := m.SameRom) (fun m' c h => h.trans (m'.sameRom_act c)) t (Mapper.SameRom.refl m)

/-! ### A valid cartridge stays one -/

theorem Mmc1.shift_write (r : Mmc1) (a : Word) (v : Byte) (h : r.shift ≠ 0) : (r.write a v).shift ≠ 0 := by
  have key : ∀ (x : BitVec 5) (b : BitVec 1), x ≠ 0 → x.getLsbD 0 = false → (x >>> 1) ||| (b.zeroExtend 5 <<< 4) ≠ 0 := by
    decide
  unfold Mmc1.write
  split
  · simp
  · simp only
    split
    · simp
    · next hb => exact key _ _ h (by simpa using hb)

theorem Mapper.valid_cpuWrite {m : Mapper} (h : m.Valid) (a : Word) (v : Byte) : (m.cpuWrite a v).Valid := by
  obtain ⟨h1, h2, h3, h4, h5, h6⟩ := h
  unfold Mapper.cpuWrite
  split
  · exact ⟨h1, h2, h3, h4, h5, h6⟩
  · next r hr =>
    split
    · exact ⟨h1, h2, h3, h4, h5, h6⟩
    · refine ⟨h1, h2, h3, h4, h5, ?_⟩
      rw [hr] at h6
      simp only [chipOk, decide_eq_true_eq] at h6 ⊢
      exact Mmc1.shift_write r a v h6
  · split
    · exact ⟨h1, h2, h3, h4, h5, h6⟩
    · exact ⟨h1, h2, h3, h4, h5, rfl⟩
  · split
    · exact ⟨h1, h2, h3, h4, h5, h6⟩
    · exact ⟨h1, h2, h3, h4, h5, rfl⟩
  · exact ⟨h1, h2, h3, h4, h5, rfl⟩

theorem Mapper.valid_ppuWrite {m : Mapper} (h : m.Valid) (a : BitVec 13) (v : Byte) : (m.ppuWrite a v).Valid := by
  obtain ⟨h1, h2, h3, h4, h5, h6⟩ := h
  unfold Mapper.ppuWrite
  split
  · exact ⟨h1, h2, h3, h4, h5, rfl⟩
  · split
    · next hc =>
      refine ⟨h1, h2, h3, Memory.wf_write h4 _ _, ?_, h6⟩
      have hs : m.chrSize = 0x2000 := by rw [Mapper.chrSize, if_pos hc]
      have ho : m.chrOffset a = a.toNat := by rw [Mapper.chrOffset, if_pos hc]
      have hlt : a.toNat < m.chrSize := by rw [hs]; exact a.isLt
      show Memory.below m.chrSize (m.chr.write (m.chrOffset a) v) = true
      rw [ho]
      exact Memory.below_write h5 hlt v
    · exact ⟨h1, h2, h3, h4, h5, h6⟩

theorem Mapper.valid_scanlineClock {m : Mapper} (h : m.Valid) : m.scanlineClock.Valid := by
  obtain ⟨h1, h2, h3, h4, h5, h6⟩ := h
  unfold Mapper.scanlineClock
  split
  · exact ⟨h1, h2, h3, h4, h5, rfl⟩
  · exact ⟨h1, h2, h3, h4, h5, h6⟩

theorem Mapper.valid_onCart {m : Mapper} (h : m.Valid) (t : PpuTick) : (t.onCart m).Valid :=
  PpuTick.onCart_induction (P := Mapper.Valid) (fun m' c hm => by
    cases c with
    | chrWrite a v => exact Mapper.valid_ppuWrite hm a v
    | scanlineClock => exact Mapper.valid_scanlineClock hm) t h

/-! ### Copy (R100) -/

/-- A copy put back into a cartridge with the same ROM gives the cartridge it was taken from. -/
theorem Mapper.copyIn_copyOut {m m' : Mapper} (h : m.SameRom m') : m'.copyIn m.copyOut = m := by
  obtain ⟨h1, h2, h3, h4, h5⟩ := h
  have hr : m'.chrIsRam = m.chrIsRam := by simp only [Mapper.chrIsRam, h3]
  obtain ⟨chip, prgBanks, chrBanks, hm, prg, chr⟩ := m
  simp only [Mapper.copyIn, Mapper.copyOut, hr, h1, h2, h3, h4, Mapper.mk.injEq, true_and]
  split
  · rfl
  · next hc => exact h5 (by simpa using hc)

end Sys2Proof.Machine
end

