-- ==== Sys2Proof/Laws/Construct.lean ====
section
/-! SUPPORT. What loading an image can answer (20_memory.md R76, R101; 70_reset_and_hazards.md R321): its one successful outcome,
the bytes that outcome holds, and that it is a valid cartridge. -/

namespace Sys2Proof.Machine

/-- All that a successful load says: the data is as long as the header declares, the mapper number has a chip, there is a PRG
bank, and the cartridge is the image's. -/
theorem loadImage_eq_ok {img : List Byte} {chrRam : Memory} {m : Mapper} (h : loadImage img chrRam = .ok m) :
    prgStart img + imagePrgSize img + imageChrSize img ≤ img.length ∧ imageByte img 4 ≠ 0 ∧
      powerOnChip (imageMirroring img) (mapperNumber img) = some m.chip ∧
      m = { chip := m.chip, prgBanks := (imageByte img 4).toNat, chrBanks := (imageByte img 5).toNat
            headerMirroring := imageMirroring img
            prgRom := Memory.ofBytes 0 ((img.drop (prgStart img)).take (imagePrgSize img))
            chr := if imageByte img 5 = 0 then chrRam
              else Memory.ofBytes 0 ((img.drop (prgStart img + imagePrgSize img)).take (imageChrSize img)) } := by
  unfold loadImage at h
  split at h
  · cases h
  split at h
  · cases h
  next _ hlen =>
    split at h
    · cases h
    next chip hc =>
      split at h
      · cases h
      next h4 =>
        cases h
        exact ⟨Nat.not_lt.mp fun hl => hlen (.inr hl), h4, hc, rfl⟩

/-- Bytes `start` to `start + n - 1` of an image, loaded from address 0, read as the image's. -/
theorem read_loaded {img : List Byte} {start n k : Nat} (hk : k < n) :
    (Memory.ofBytes 0 ((img.drop start).take n)).read k = imageByte img (start + k) := by
  rw [Memory.read_ofBytes 0 k _ (Nat.zero_le k), Nat.sub_zero, imageByte]
  simp only [List.getD_eq_getElem?_getD, List.getElem?_take, List.getElem?_drop, if_pos hk]
  rfl

/-- A chip with its power-on registers has legal ones. -/
theorem chipOk_powerOnChip {mirroring : Mirroring} {n : Nat} {c : Chip} (h : powerOnChip mirroring n = some c) :
    chipOk c = true := by
  unfold powerOnChip at h
  split at h <;> cases h <;> rfl

/-- A chip with its power-on registers asserts no IRQ (R328). -/
theorem irqOut_powerOnChip {m : Mapper} {n : Nat} (h : powerOnChip m.headerMirroring n = some m.chip) :
    m.irqOut = false := by
  unfold powerOnChip at h
  split at h
  all_goals first
    | cases h
    | (have e := (Option.some.inj h).symm; simp only [Mapper.irqOut, e])

/-- A load with a canonical CHR RAM of 8 KiB gives a valid cartridge. -/
theorem loadImage_valid {img : List Byte} {chrRam : Memory} {m : Mapper} (hw : chrRam.wf = true)
    (hb : chrRam.below 0x2000 = true) (h : loadImage img chrRam = .ok m) : m.Valid := by
  obtain ⟨-, h4, hc, hm⟩ := loadImage_eq_ok h
  have hlen : ∀ start n : Nat, 0 + ((img.drop start).take n).length ≤ n := fun start n => by
    rw [Nat.zero_add]; exact List.length_take_le _ _
  have h4' : 1 ≤ (imageByte img 4).toNat := Nat.pos_of_ne_zero fun e => h4 (BitVec.eq_of_toNat_eq e)
  refine ⟨by rw [hm]; exact h4', by rw [hm]; exact Memory.wf_ofBytes _ _, by rw [hm]; exact Memory.below_ofBytes (hlen _ _), ?_,
    ?_, chipOk_powerOnChip hc⟩
  · rw [hm]; show Memory.wf (if _ then _ else _) = true
    split
    · exact hw
    · exact Memory.wf_ofBytes _ _
  · by_cases h5 : imageByte img 5 = 0
    · have hr : m.chrIsRam = true := by rw [hm]; simp [Mapper.chrIsRam, h5]
      rw [Mapper.chrSize, if_pos hr, hm]
      simp only [if_pos h5]; exact hb
    · have hr : ¬ m.chrIsRam = true := by
        rw [hm]; simp only [Mapper.chrIsRam, beq_iff_eq]
        exact fun e => h5 (BitVec.eq_of_toNat_eq e)
      rw [Mapper.chrSize, if_neg hr, hm]
      simp only [if_neg h5]
      exact Memory.below_ofBytes (hlen _ _)

end Sys2Proof.Machine
end

