-- ==== Sys2Proof/Laws/Operands.lean ====
section
/-! SUPPORT. What computing an effective address and accessing an operand can do (40_addressing.md R134 to R144). -/

namespace Sys2Proof.Machine

theorem zeroPage_in_ram (z : Byte) : (zeroPage z).toNat < 0x2000 := by
  have := z.isLt
  rw [zeroPage, toNat_mkWord]
  simp; omega

theorem zeroPage_mod (z : Byte) : (zeroPage z).toNat % 2048 = z.toNat := by
  have := z.isLt
  rw [zeroPage, toNat_mkWord]
  simp; omega

theorem toNat_zeroPage (z : Byte) : (zeroPage z).toNat = z.toNat := by
  rw [zeroPage, toNat_mkWord]
  simp

/-- The pointer read: two zero-page bytes, the second wrapping in the page; only the latch changes. -/
theorem zeroPagePointer_eq (z : Byte) (s : State) :
    zeroPagePointer z s =
      (wordOf (s.ram.read (z + 1).toNat) (s.ram.read z.toNat), s.setOpenBus (s.ram.read (z + 1).toNat)) := by
  simp only [zeroPagePointer, busRead_of_ram (zeroPage_in_ram _), zeroPage_mod, mkWord_eq_wordOf,
    State.setOpenBus_ram]
  rfl

/-- Everything the address computation of any mode leaves: the latch may hold a pointer byte, nothing else changes. -/
theorem effective_state (m : Mem) (s : State) :
    (effective m s).state = s.setOpenBus (effective m s).state.cpu.openBus := by
  cases m <;> simp only [effective, indexed, zeroPagePointer_eq] <;> rfl

@[simp] theorem effective_ram (m : Mem) (s : State) : (effective m s).state.ram = s.ram := by
  rw [effective_state]; rfl

@[simp] theorem effective_cart (m : Mem) (s : State) : (effective m s).state.cart = s.cart := by
  rw [effective_state]; rfl

theorem effective_cpu (m : Mem) (s : State) :
    (effective m s).state.cpu = { s.cpu with openBus := (effective m s).state.cpu.openBus } := by
  rw [effective_state]; rfl

/-- Everything the read of an operand leaves: what an access of the bus at its address leaves. -/
theorem operandRead_frame {o : Operand} {s t : State} {v : Byte} {k : Nat} (h : OperandRead o s v k t) :
    t.cpu = { s.cpu with openBus := t.cpu.openBus } ∧ t.ram = s.ram ∧ t.cart = s.cart ∧ t.params = s.params ∧
      t.slot = s.slot ∧ k ≤ 1 := by
  cases o <;> simp only [OperandRead] at h
  case imm => obtain ⟨_, rfl, rfl⟩ := h; simp
  case mem m =>
    obtain ⟨h, rfl⟩ := h
    obtain rfl : t = (busRead _ _).2 := congrArg Prod.snd h
    rw [effective_state]
    refine ⟨by simp, by simp, by simp, by simp, by simp, ?_⟩
    split <;> simp

/-- The read class on an immediate operand, through the notation of R144. -/
theorem readImm_eq (n : Nat) (f : Byte → State → State) (b : Byte) (s : State) :
    ∃ v k t, OperandRead (.imm b) s v k t ∧ readImm n f b s = (f v t).setCycles (n + k) :=
  ⟨b, 0, s, ⟨rfl, rfl, rfl⟩, rfl⟩

/-- The read class on a memory operand, through the notation of R144. -/
theorem readMem_eq (n : Nat) (f : Byte → State → State) (m : Mem) (s : State) :
    ∃ v k t, OperandRead (.mem m) s v k t ∧ readMem n f m s = (f v t).setCycles (n + k) :=
  ⟨_, _, _, ⟨rfl, rfl⟩, rfl⟩

/-- The registers and flags after the read of an operand are those before it. -/
theorem operandRead_registers {o : Operand} {s t : State} {v : Byte} {k : Nat} (h : OperandRead o s v k t) :
    t.cpu.a = s.cpu.a ∧ t.cpu.x = s.cpu.x ∧ t.cpu.y = s.cpu.y ∧ t.cpu.sp = s.cpu.sp ∧ t.cpu.pc = s.cpu.pc ∧
      t.cpu.p = s.cpu.p := by
  rw [(operandRead_frame h).1]
  exact ⟨rfl, rfl, rfl, rfl, rfl, rfl⟩

/-- The flags a modify operation sees are those before the operand was read. -/
theorem busRead_effective_p (m : Mem) (s : State) : (busRead (effective m s).addr (effective m s).state).2.cpu.p = s.cpu.p := by
  rw [busRead_cpu, effective_cpu]

end Sys2Proof.Machine
end

