-- ==== Sys2Proof/Laws/Exec.lean ====
section
/-! SUPPORT. The instructions by class (40_addressing.md R144): what `exec` is for the read, write, read-modify-write and branch
classes, as one equation per class, so that no later proof goes through all 151 rows. -/

namespace Sys2Proof.Machine

/-- The operation of a read-class mnemonic on its operand. -/
def readOp : Mnemonic → Byte → State → State
  | .lda => loadA
  | .ldx => loadX
  | .ldy => loadY
  | .adc => addA
  | .sbc => subtractA
  | .and => andA
  | .ora => orA
  | .eor => eorA
  | .bit => bitTest
  | .cmp => compareA
  | .cpx => compareX
  | .cpy => compareY
  | _ => fun _ s => s

/-- The register a write-class mnemonic stores. -/
def storedRegister : Mnemonic → Cpu → Byte
  | .stx, c => c.x
  | .sty, c => c.y
  | _, c => c.a

/-- The operation of a read-modify-write mnemonic. -/
def modifyOp : Mnemonic → Flags → Byte → Byte × Flags
  | .inc => Flags.inc
  | .dec => Flags.dec
  | .asl => Flags.asl
  | .lsr => Flags.lsr
  | .rol => Flags.rol
  | _ => Flags.ror

/-- The condition of a branch. -/
def branchTaken : Mnemonic → Flags → Bool
  | .bcc, p => !p.c
  | .bcs, p => p.c
  | .beq, p => p.z
  | .bmi, p => p.n
  | .bne, p => !p.z
  | .bpl, p => !p.n
  | .bvc, p => !p.v
  | _, p => p.v

/-- Every instruction of the read class. -/
theorem exec_read (i : Instr) (s : State)
    (h : i.mnemonic ∈ ([.lda, .ldx, .ldy, .adc, .sbc, .and, .ora, .eor, .bit, .cmp, .cpx, .cpy] : List Mnemonic)) :
    (∃ v, i.operand = .imm v ∧ exec i s = .next (readImm i.baseCycles (readOp i.mnemonic) v s)) ∨
      ∃ m, i.operand = .mem m ∧ exec i s = .next (readMem i.baseCycles (readOp i.mnemonic) m s) := by
  cases i <;> first
    | exact absurd h (of_decide_eq_false rfl)
    | (refine .inl ⟨_, rfl, ?_⟩; rfl)
    | (refine .inr ⟨_, rfl, ?_⟩; rfl)

/-- Every instruction of the write class. -/
theorem exec_write (i : Instr) (s : State) (h : i.mnemonic ∈ ([.sta, .stx, .sty] : List Mnemonic)) :
    ∃ m, i.operand = .mem m ∧ exec i s = .next (writeMem i.baseCycles (storedRegister i.mnemonic s.cpu) m s) := by
  cases i <;> first
    | exact absurd h (of_decide_eq_false rfl)
    | (refine ⟨_, rfl, ?_⟩; rfl)

/-- Every instruction of the read-modify-write class. -/
theorem exec_modify (i : Instr) (s : State)
    (h : i.mnemonic ∈ ([.inc, .dec, .asl, .lsr, .rol, .ror] : List Mnemonic)) :
    (i.operand = .acc ∧ exec i s = .next (modifyAcc i.baseCycles (modifyOp i.mnemonic) s)) ∨
      ∃ m, i.operand = .mem m ∧ exec i s = .next (modifyMem i.baseCycles (modifyOp i.mnemonic) m s) := by
  cases i <;> first
    | exact absurd h (of_decide_eq_false rfl)
    | (refine .inl ⟨rfl, ?_⟩; rfl)
    | (refine .inr ⟨_, rfl, ?_⟩; rfl)

/-- Every branch. -/
theorem exec_branch (i : Instr) (s : State)
    (h : i.mnemonic ∈ ([.bcc, .bcs, .beq, .bmi, .bne, .bpl, .bvc, .bvs] : List Mnemonic)) :
    ∃ d, i.operand = .rel d ∧ exec i s = .next (branch (branchTaken i.mnemonic s.cpu.p) d s) := by
  cases i <;> first
    | exact absurd h (of_decide_eq_false rfl)
    | (refine ⟨_, rfl, ?_⟩; rfl)

/-- Every instruction has a next state: none stops by itself. -/
theorem exec_next (i : Instr) (s : State) : ∃ t, exec i s = .next t := by
  cases i <;> exact ⟨_, rfl⟩

end Sys2Proof.Machine
end

