-- ==== Sys2Proof/Laws/PerInstr.lean ====
section
/-! SUPPORT. One lemma per instruction, the encoding family: the bytes of every instruction are well-formed, by the structure of the
opcode map (30_encoding.md R110, R113, R116), which `encodingLength` reads apart from the decoder's table. -/

namespace Sys2Proof.Laws.Encoding

/-- The bytes of the instruction are well-formed: a documented opcode and exactly the length it fixes. -/
def Statement (i : Instr) : Prop := WellFormedBytes (encode i) = true

theorem of_opcode {i : Instr} (op : Byte) (ho : i.opcode = op)
    (h : encodingLength op = some (i.operand.bytes.length + 1)) : Statement i := by
  simp [Statement, WellFormedBytes, encode, ho, h]

theorem one_byte {i : Instr} (op : Byte) (ho : i.opcode = op) (hb : i.operand.bytes.length = 0)
    (h : encodingLength op = some 1) : Statement i :=
  of_opcode op ho (by rw [hb, h])

theorem two_bytes {i : Instr} (op : Byte) (ho : i.opcode = op) (hb : i.operand.bytes.length = 1)
    (h : encodingLength op = some 2) : Statement i :=
  of_opcode op ho (by rw [hb, h])

theorem three_bytes {i : Instr} (op : Byte) (ho : i.opcode = op) (hb : i.operand.bytes.length = 2)
    (h : encodingLength op = some 3) : Statement i :=
  of_opcode op ho (by rw [hb, h])

theorem ldaImm (v : Byte) : Statement (.ldaImm v) := two_bytes 0xA9 rfl rfl (by decide)
theorem ldaZp (z : Byte) : Statement (.ldaZp z) := two_bytes 0xA5 rfl rfl (by decide)
theorem ldaZpx (z : Byte) : Statement (.ldaZpx z) := two_bytes 0xB5 rfl rfl (by decide)
theorem ldaAbs (w : Word) : Statement (.ldaAbs w) := three_bytes 0xAD rfl rfl (by decide)
theorem ldaAbsx (w : Word) : Statement (.ldaAbsx w) := three_bytes 0xBD rfl rfl (by decide)
theorem ldaAbsy (w : Word) : Statement (.ldaAbsy w) := three_bytes 0xB9 rfl rfl (by decide)
theorem ldaIndx (z : Byte) : Statement (.ldaIndx z) := two_bytes 0xA1 rfl rfl (by decide)
theorem ldaIndy (z : Byte) : Statement (.ldaIndy z) := two_bytes 0xB1 rfl rfl (by decide)
theorem ldxImm (v : Byte) : Statement (.ldxImm v) := two_bytes 0xA2 rfl rfl (by decide)
theorem ldxZp (z : Byte) : Statement (.ldxZp z) := two_bytes 0xA6 rfl rfl (by decide)
theorem ldxZpy (z : Byte) : Statement (.ldxZpy z) := two_bytes 0xB6 rfl rfl (by decide)
theorem ldxAbs (w : Word) : Statement (.ldxAbs w) := three_bytes 0xAE rfl rfl (by decide)
theorem ldxAbsy (w : Word) : Statement (.ldxAbsy w) := three_bytes 0xBE rfl rfl (by decide)
theorem ldyImm (v : Byte) : Statement (.ldyImm v) := two_bytes 0xA0 rfl rfl (by decide)
theorem ldyZp (z : Byte) : Statement (.ldyZp z) := two_bytes 0xA4 rfl rfl (by decide)
theorem ldyZpx (z : Byte) : Statement (.ldyZpx z) := two_bytes 0xB4 rfl rfl (by decide)
theorem ldyAbs (w : Word) : Statement (.ldyAbs w) := three_bytes 0xAC rfl rfl (by decide)
theorem ldyAbsx (w : Word) : Statement (.ldyAbsx w) := three_bytes 0xBC rfl rfl (by decide)
theorem staZp (z : Byte) : Statement (.staZp z) := two_bytes 0x85 rfl rfl (by decide)
theorem staZpx (z : Byte) : Statement (.staZpx z) := two_bytes 0x95 rfl rfl (by decide)
theorem staAbs (w : Word) : Statement (.staAbs w) := three_bytes 0x8D rfl rfl (by decide)
theorem staAbsx (w : Word) : Statement (.staAbsx w) := three_bytes 0x9D rfl rfl (by decide)
theorem staAbsy (w : Word) : Statement (.staAbsy w) := three_bytes 0x99 rfl rfl (by decide)
theorem staIndx (z : Byte) : Statement (.staIndx z) := two_bytes 0x81 rfl rfl (by decide)
theorem staIndy (z : Byte) : Statement (.staIndy z) := two_bytes 0x91 rfl rfl (by decide)
theorem stxZp (z : Byte) : Statement (.stxZp z) := two_bytes 0x86 rfl rfl (by decide)
theorem stxZpy (z : Byte) : Statement (.stxZpy z) := two_bytes 0x96 rfl rfl (by decide)
theorem stxAbs (w : Word) : Statement (.stxAbs w) := three_bytes 0x8E rfl rfl (by decide)
theorem styZp (z : Byte) : Statement (.styZp z) := two_bytes 0x84 rfl rfl (by decide)
theorem styZpx (z : Byte) : Statement (.styZpx z) := two_bytes 0x94 rfl rfl (by decide)
theorem styAbs (w : Word) : Statement (.styAbs w) := three_bytes 0x8C rfl rfl (by decide)
theorem tax : Statement .tax := one_byte 0xAA rfl rfl (by decide)
theorem tay : Statement .tay := one_byte 0xA8 rfl rfl (by decide)
theorem tsx : Statement .tsx := one_byte 0xBA rfl rfl (by decide)
theorem txa : Statement .txa := one_byte 0x8A rfl rfl (by decide)
theorem txs : Statement .txs := one_byte 0x9A rfl rfl (by decide)
theorem tya : Statement .tya := one_byte 0x98 rfl rfl (by decide)
theorem pha : Statement .pha := one_byte 0x48 rfl rfl (by decide)
theorem php : Statement .php := one_byte 0x08 rfl rfl (by decide)
theorem pla : Statement .pla := one_byte 0x68 rfl rfl (by decide)
theorem plp : Statement .plp := one_byte 0x28 rfl rfl (by decide)
theorem adcImm (v : Byte) : Statement (.adcImm v) := two_bytes 0x69 rfl rfl (by decide)
theorem adcZp (z : Byte) : Statement (.adcZp z) := two_bytes 0x65 rfl rfl (by decide)
theorem adcZpx (z : Byte) : Statement (.adcZpx z) := two_bytes 0x75 rfl rfl (by decide)
theorem adcAbs (w : Word) : Statement (.adcAbs w) := three_bytes 0x6D rfl rfl (by decide)
theorem adcAbsx (w : Word) : Statement (.adcAbsx w) := three_bytes 0x7D rfl rfl (by decide)
theorem adcAbsy (w : Word) : Statement (.adcAbsy w) := three_bytes 0x79 rfl rfl (by decide)
theorem adcIndx (z : Byte) : Statement (.adcIndx z) := two_bytes 0x61 rfl rfl (by decide)
theorem adcIndy (z : Byte) : Statement (.adcIndy z) := two_bytes 0x71 rfl rfl (by decide)
theorem sbcImm (v : Byte) : Statement (.sbcImm v) := two_bytes 0xE9 rfl rfl (by decide)
theorem sbcZp (z : Byte) : Statement (.sbcZp z) := two_bytes 0xE5 rfl rfl (by decide)
theorem sbcZpx (z : Byte) : Statement (.sbcZpx z) := two_bytes 0xF5 rfl rfl (by decide)
theorem sbcAbs (w : Word) : Statement (.sbcAbs w) := three_bytes 0xED rfl rfl (by decide)
theorem sbcAbsx (w : Word) : Statement (.sbcAbsx w) := three_bytes 0xFD rfl rfl (by decide)
theorem sbcAbsy (w : Word) : Statement (.sbcAbsy w) := three_bytes 0xF9 rfl rfl (by decide)
theorem sbcIndx (z : Byte) : Statement (.sbcIndx z) := two_bytes 0xE1 rfl rfl (by decide)
theorem sbcIndy (z : Byte) : Statement (.sbcIndy z) := two_bytes 0xF1 rfl rfl (by decide)
theorem andImm (v : Byte) : Statement (.andImm v) := two_bytes 0x29 rfl rfl (by decide)
theorem andZp (z : Byte) : Statement (.andZp z) := two_bytes 0x25 rfl rfl (by decide)
theorem andZpx (z : Byte) : Statement (.andZpx z) := two_bytes 0x35 rfl rfl (by decide)
theorem andAbs (w : Word) : Statement (.andAbs w) := three_bytes 0x2D rfl rfl (by decide)
theorem andAbsx (w : Word) : Statement (.andAbsx w) := three_bytes 0x3D rfl rfl (by decide)
theorem andAbsy (w : Word) : Statement (.andAbsy w) := three_bytes 0x39 rfl rfl (by decide)
theorem andIndx (z : Byte) : Statement (.andIndx z) := two_bytes 0x21 rfl rfl (by decide)
theorem andIndy (z : Byte) : Statement (.andIndy z) := two_bytes 0x31 rfl rfl (by decide)
theorem oraImm (v : Byte) : Statement (.oraImm v) := two_bytes 0x09 rfl rfl (by decide)
theorem oraZp (z : Byte) : Statement (.oraZp z) := two_bytes 0x05 rfl rfl (by decide)
theorem oraZpx (z : Byte) : Statement (.oraZpx z) := two_bytes 0x15 rfl rfl (by decide)
theorem oraAbs (w : Word) : Statement (.oraAbs w) := three_bytes 0x0D rfl rfl (by decide)
theorem oraAbsx (w : Word) : Statement (.oraAbsx w) := three_bytes 0x1D rfl rfl (by decide)
theorem oraAbsy (w : Word) : Statement (.oraAbsy w) := three_bytes 0x19 rfl rfl (by decide)
theorem oraIndx (z : Byte) : Statement (.oraIndx z) := two_bytes 0x01 rfl rfl (by decide)
theorem oraIndy (z : Byte) : Statement (.oraIndy z) := two_bytes 0x11 rfl rfl (by decide)
theorem eorImm (v : Byte) : Statement (.eorImm v) := two_bytes 0x49 rfl rfl (by decide)
theorem eorZp (z : Byte) : Statement (.eorZp z) := two_bytes 0x45 rfl rfl (by decide)
theorem eorZpx (z : Byte) : Statement (.eorZpx z) := two_bytes 0x55 rfl rfl (by decide)
theorem eorAbs (w : Word) : Statement (.eorAbs w) := three_bytes 0x4D rfl rfl (by decide)
theorem eorAbsx (w : Word) : Statement (.eorAbsx w) := three_bytes 0x5D rfl rfl (by decide)
theorem eorAbsy (w : Word) : Statement (.eorAbsy w) := three_bytes 0x59 rfl rfl (by decide)
theorem eorIndx (z : Byte) : Statement (.eorIndx z) := two_bytes 0x41 rfl rfl (by decide)
theorem eorIndy (z : Byte) : Statement (.eorIndy z) := two_bytes 0x51 rfl rfl (by decide)
theorem bitZp (z : Byte) : Statement (.bitZp z) := two_bytes 0x24 rfl rfl (by decide)
theorem bitAbs (w : Word) : Statement (.bitAbs w) := three_bytes 0x2C rfl rfl (by decide)
theorem cmpImm (v : Byte) : Statement (.cmpImm v) := two_bytes 0xC9 rfl rfl (by decide)
theorem cmpZp (z : Byte) : Statement (.cmpZp z) := two_bytes 0xC5 rfl rfl (by decide)
theorem cmpZpx (z : Byte) : Statement (.cmpZpx z) := two_bytes 0xD5 rfl rfl (by decide)
theorem cmpAbs (w : Word) : Statement (.cmpAbs w) := three_bytes 0xCD rfl rfl (by decide)
theorem cmpAbsx (w : Word) : Statement (.cmpAbsx w) := three_bytes 0xDD rfl rfl (by decide)
theorem cmpAbsy (w : Word) : Statement (.cmpAbsy w) := three_bytes 0xD9 rfl rfl (by decide)
theorem cmpIndx (z : Byte) : Statement (.cmpIndx z) := two_bytes 0xC1 rfl rfl (by decide)
theorem cmpIndy (z : Byte) : Statement (.cmpIndy z) := two_bytes 0xD1 rfl rfl (by decide)
theorem cpxImm (v : Byte) : Statement (.cpxImm v) := two_bytes 0xE0 rfl rfl (by decide)
theorem cpxZp (z : Byte) : Statement (.cpxZp z) := two_bytes 0xE4 rfl rfl (by decide)
theorem cpxAbs (w : Word) : Statement (.cpxAbs w) := three_bytes 0xEC rfl rfl (by decide)
theorem cpyImm (v : Byte) : Statement (.cpyImm v) := two_bytes 0xC0 rfl rfl (by decide)
theorem cpyZp (z : Byte) : Statement (.cpyZp z) := two_bytes 0xC4 rfl rfl (by decide)
theorem cpyAbs (w : Word) : Statement (.cpyAbs w) := three_bytes 0xCC rfl rfl (by decide)
theorem incZp (z : Byte) : Statement (.incZp z) := two_bytes 0xE6 rfl rfl (by decide)
theorem incZpx (z : Byte) : Statement (.incZpx z) := two_bytes 0xF6 rfl rfl (by decide)
theorem incAbs (w : Word) : Statement (.incAbs w) := three_bytes 0xEE rfl rfl (by decide)
theorem incAbsx (w : Word) : Statement (.incAbsx w) := three_bytes 0xFE rfl rfl (by decide)
theorem inx : Statement .inx := one_byte 0xE8 rfl rfl (by decide)
theorem iny : Statement .iny := one_byte 0xC8 rfl rfl (by decide)
theorem decZp (z : Byte) : Statement (.decZp z) := two_bytes 0xC6 rfl rfl (by decide)
theorem decZpx (z : Byte) : Statement (.decZpx z) := two_bytes 0xD6 rfl rfl (by decide)
theorem decAbs (w : Word) : Statement (.decAbs w) := three_bytes 0xCE rfl rfl (by decide)
theorem decAbsx (w : Word) : Statement (.decAbsx w) := three_bytes 0xDE rfl rfl (by decide)
theorem dex : Statement .dex := one_byte 0xCA rfl rfl (by decide)
theorem dey : Statement .dey := one_byte 0x88 rfl rfl (by decide)
theorem aslAcc : Statement .aslAcc := one_byte 0x0A rfl rfl (by decide)
theorem aslZp (z : Byte) : Statement (.aslZp z) := two_bytes 0x06 rfl rfl (by decide)
theorem aslZpx (z : Byte) : Statement (.aslZpx z) := two_bytes 0x16 rfl rfl (by decide)
theorem aslAbs (w : Word) : Statement (.aslAbs w) := three_bytes 0x0E rfl rfl (by decide)
theorem aslAbsx (w : Word) : Statement (.aslAbsx w) := three_bytes 0x1E rfl rfl (by decide)
theorem lsrAcc : Statement .lsrAcc := one_byte 0x4A rfl rfl (by decide)
theorem lsrZp (z : Byte) : Statement (.lsrZp z) := two_bytes 0x46 rfl rfl (by decide)
theorem lsrZpx (z : Byte) : Statement (.lsrZpx z) := two_bytes 0x56 rfl rfl (by decide)
theorem lsrAbs (w : Word) : Statement (.lsrAbs w) := three_bytes 0x4E rfl rfl (by decide)
theorem lsrAbsx (w : Word) : Statement (.lsrAbsx w) := three_bytes 0x5E rfl rfl (by decide)
theorem rolAcc : Statement .rolAcc := one_byte 0x2A rfl rfl (by decide)
theorem rolZp (z : Byte) : Statement (.rolZp z) := two_bytes 0x26 rfl rfl (by decide)
theorem rolZpx (z : Byte) : Statement (.rolZpx z) := two_bytes 0x36 rfl rfl (by decide)
theorem rolAbs (w : Word) : Statement (.rolAbs w) := three_bytes 0x2E rfl rfl (by decide)
theorem rolAbsx (w : Word) : Statement (.rolAbsx w) := three_bytes 0x3E rfl rfl (by decide)
theorem rorAcc : Statement .rorAcc := one_byte 0x6A rfl rfl (by decide)
theorem rorZp (z : Byte) : Statement (.rorZp z) := two_bytes 0x66 rfl rfl (by decide)
theorem rorZpx (z : Byte) : Statement (.rorZpx z) := two_bytes 0x76 rfl rfl (by decide)
theorem rorAbs (w : Word) : Statement (.rorAbs w) := three_bytes 0x6E rfl rfl (by decide)
theorem rorAbsx (w : Word) : Statement (.rorAbsx w) := three_bytes 0x7E rfl rfl (by decide)
theorem bcc (d : Byte) : Statement (.bcc d) := two_bytes 0x90 rfl rfl (by decide)
theorem bcs (d : Byte) : Statement (.bcs d) := two_bytes 0xB0 rfl rfl (by decide)
theorem beq (d : Byte) : Statement (.beq d) := two_bytes 0xF0 rfl rfl (by decide)
theorem bmi (d : Byte) : Statement (.bmi d) := two_bytes 0x30 rfl rfl (by decide)
theorem bne (d : Byte) : Statement (.bne d) := two_bytes 0xD0 rfl rfl (by decide)
theorem bpl (d : Byte) : Statement (.bpl d) := two_bytes 0x10 rfl rfl (by decide)
theorem bvc (d : Byte) : Statement (.bvc d) := two_bytes 0x50 rfl rfl (by decide)
theorem bvs (d : Byte) : Statement (.bvs d) := two_bytes 0x70 rfl rfl (by decide)
theorem jmpAbs (w : Word) : Statement (.jmpAbs w) := three_bytes 0x4C rfl rfl (by decide)
theorem jmpInd (w : Word) : Statement (.jmpInd w) := three_bytes 0x6C rfl rfl (by decide)
theorem jsr (w : Word) : Statement (.jsr w) := three_bytes 0x20 rfl rfl (by decide)
theorem rts : Statement .rts := one_byte 0x60 rfl rfl (by decide)
theorem clc : Statement .clc := one_byte 0x18 rfl rfl (by decide)
theorem cld : Statement .cld := one_byte 0xD8 rfl rfl (by decide)
theorem cli : Statement .cli := one_byte 0x58 rfl rfl (by decide)
theorem clv : Statement .clv := one_byte 0xB8 rfl rfl (by decide)
theorem sec : Statement .sec := one_byte 0x38 rfl rfl (by decide)
theorem sed : Statement .sed := one_byte 0xF8 rfl rfl (by decide)
theorem sei : Statement .sei := one_byte 0x78 rfl rfl (by decide)
theorem brk : Statement .brk := one_byte 0x00 rfl rfl (by decide)
theorem rti : Statement .rti := one_byte 0x40 rfl rfl (by decide)
theorem nop : Statement .nop := one_byte 0xEA rfl rfl (by decide)

end Sys2Proof.Laws.Encoding
end

