-- ==== Sys2Proof/Laws/Stack.lean ====
section
/-! SUPPORT. Everything the stack operations do (10_state.md R24): the page-1 byte, SP and the latch, and nothing else. -/

namespace Sys2Proof.Machine

theorem stack_in_ram (sp : Byte) : (stackAddr sp).toNat < 0x2000 := by
  have := stackIndex_lt sp
  rw [toNat_stackAddr]
  omega

theorem stackAddr_mod (sp : Byte) : (stackAddr sp).toNat % 2048 = stackIndex sp := by
  have := stackIndex_lt sp
  rw [toNat_stackAddr]
  omega

/-- `Push(v)`: the byte goes to 0x0100 | SP, SP moves down modulo 2^8, the latch holds the byte. -/
theorem push_eq (v : Byte) (s : State) :
    push v s = { s with
      ram := s.ram.write (stackIndex s.cpu.sp) v
      cpu := { s.cpu with sp := s.cpu.sp - 1, openBus := v } } := by
  rw [push, busWrite_of_ram (stack_in_ram _), stackAddr_mod]
  rfl

/-- `Pull()`: SP moves up modulo 2^8, the byte at 0x0100 | SP is read, the latch holds it. -/
theorem pull_eq (s : State) :
    pull s = (s.ram.read (stackIndex (s.cpu.sp + 1)),
      { s with cpu := { s.cpu with
        sp := s.cpu.sp + 1, openBus := s.ram.read (stackIndex (s.cpu.sp + 1)) } }) := by
  simp only [pull]
  rw [busRead_of_ram (stack_in_ram _), stackAddr_mod]
  rfl

/-- The high byte is pushed first, to the higher address. -/
theorem push16_eq (w : Word) (s : State) :
    push16 w s = { s with
      ram := (s.ram.write (stackIndex s.cpu.sp) (highOf w)).write (stackIndex (s.cpu.sp - 1)) (lowOf w)
      cpu := { s.cpu with sp := s.cpu.sp - 2, openBus := lowOf w } } := by
  have h : s.cpu.sp - 1 - 1 = s.cpu.sp - 2 := by bv_omega
  simp only [push16, push_eq, hiByte_eq_highOf, loByte_eq_lowOf, h]

/-- The low byte is pulled first, from the lower address. -/
theorem pull16_eq (s : State) :
    pull16 s =
      (wordOf (s.ram.read (stackIndex (s.cpu.sp + 2))) (s.ram.read (stackIndex (s.cpu.sp + 1))),
      { s with cpu := { s.cpu with
        sp := s.cpu.sp + 2, openBus := s.ram.read (stackIndex (s.cpu.sp + 2)) } }) := by
  have h : s.cpu.sp + 1 + 1 = s.cpu.sp + 2 := by bv_omega
  simp only [pull16, pull_eq, mkWord_eq_wordOf, h]

/-- What taking an interrupt leaves as it was: A, X, Y, the flags but I, the interrupt inputs and the stall, and everything
outside the CPU and RAM. -/
theorem enterInterrupt_frame {vector : Word} (hv : 0x4020 ≤ vector.toNat) (hv' : vector.toNat < 0xFFFF) (ret : Word)
    (b : Bool) (s : State) :
    ∃ ram sp pc openBus, enterInterrupt vector ret b s = { s with
      ram := ram
      cpu := { s.cpu with
        sp := sp, pc := pc, openBus := openBus, p := { s.cpu.p with i := true }, cyclesRemaining := 6 } } := by
  have hv1 : 0x4020 ≤ (vector + 1).toNat := by rw [BitVec.toNat_add]; simp; omega
  simp only [enterInterrupt, push16_eq, push_eq, read16, busRead_of_cart hv, busRead_of_cart hv1]
  exact ⟨_, _, _, _, rfl⟩

end Sys2Proof.Machine
end

