-- ==== Sys2Proof/Laws/Step.lean ====
section
/-! SUPPORT. What each part of a step can do: its shape by cases, and one relation, `Keeps`, for everything no access of the CPU
may break. -/

namespace Sys2Proof.Machine

/-! ### The shape of a step -/

/-- A step is a CPU step and the device steps after it. -/
theorem step_eq_next {s t : State} (h : step s = .next t) : ∃ u, cpuStep s = .next u ∧ t = devicePhase u := by
  unfold step at h
  cases hc : cpuStep s with
  | next u => rw [hc] at h; cases h; exact ⟨u, rfl, rfl⟩
  | fault e => rw [hc] at h; cases h
  | refused e => rw [hc] at h; cases h

/-- A CPU step at an instruction boundary (60_exceptions.md R273). -/
theorem cpuStep_boundary {s : State} (h : s.AtBoundary) : cpuStep s = andThen State.toggleOdd (boundary s) := by
  rw [cpuStep, if_neg (by simpa using h.1), if_neg (by simpa using h.2)]

/-- A boundary that takes no interrupt fetches (R266). -/
theorem boundary_fetches {s : State} (h : s.NoInterrupt) : boundary s = fetchExecute s := by
  obtain ⟨h1, h2⟩ := h
  rw [boundary, if_neg (by simp [h1]), if_neg (by rcases h2 with h2 | h2 <;> simp [h2])]

theorem andThen_andThen (f g : State → State) (r : Result) :
    andThen f (andThen g r) = andThen (fun s => f (g s)) r := by
  cases r <;> rfl

/-- One byte of a fetch, with its effect on PC in full. -/
theorem fetchByte_eq (s : State) :
    fetchByte s = ((busRead s.cpu.pc s).1,
      { (busRead s.cpu.pc s).2 with cpu := { (busRead s.cpu.pc s).2.cpu with pc := s.cpu.pc + 1 } }) := by
  have h : (busRead s.cpu.pc s).2.cpu.pc = s.cpu.pc := by rw [busRead_cpu]
  simp only [fetchByte]
  rw [h]
  rfl

/-! ### What no access of the CPU may break -/

/-- Everything a CPU access, an instruction or an interrupt keeps: the parameters, the slot, the ROM; a valid RAM and
cartridge stay valid; the PPU's position; the vblank flag is only ever cleared. -/
structure Keeps (s t : State) : Prop where
  params : t.params = s.params
  slot : t.slot = s.slot
  ram : RamValid s.ram → RamValid t.ram
  cart : s.cart.Valid → t.cart.Valid
  rom : s.cart.SameRom t.cart
  scanline : t.ppu.scanline = s.ppu.scanline
  dot : t.ppu.dot = s.ppu.dot
  vblank : t.ppu.vblank = true → s.ppu.vblank = true

theorem Keeps.refl (s : State) : Keeps s s := ⟨rfl, rfl, id, id, Mapper.SameRom.refl _, rfl, rfl, id⟩

theorem Keeps.trans {s t u : State} (a : Keeps s t) (b : Keeps t u) : Keeps s u :=
  ⟨b.1.trans a.1, b.2.trans a.2, fun h => b.3 (a.3 h), fun h => b.4 (a.4 h), a.5.trans b.5, b.6.trans a.6,
    b.7.trans a.7, fun h => a.8 (b.8 h)⟩

/-- A change of the CPU's own fields. -/
theorem Keeps.cpu {s t : State} (a : Keeps s t) (c : Cpu) : Keeps s { t with cpu := c } :=
  ⟨a.1, a.2, a.3, a.4, a.5, a.6, a.7, a.8⟩

theorem Keeps.busRead (a : Word) (s : State) : Keeps s (busRead a s).2 := by
  obtain ⟨p1, p2, _, p4⟩ := busRead_ppu_position a s
  refine ⟨busRead_params a s, busRead_slot a s, ?_, ?_, ?_, p1, p2, p4⟩
  · rw [busRead_ram]; exact id
  · rw [busRead_cart]; exact id
  · rw [busRead_cart]; exact Mapper.SameRom.refl _

theorem Keeps.busWrite (a : Word) (v : Byte) (s : State) : Keeps s (busWrite a v s) := by
  obtain ⟨_, w2, w3, _, _, w6, w7, w8⟩ := busWrite_frame a v s
  refine ⟨w2, w3, ?_, ?_, ?_, w6, w7, w8⟩
  · rw [busWrite_ram]
    split
    · exact fun h => ⟨Memory.wf_write h.1 _ _, Memory.below_write h.2 (Nat.mod_lt _ (by decide)) _⟩
    · exact id
  · rw [busWrite_cart]
    split
    · exact fun h => Mapper.valid_cpuWrite h _ _
    · exact id
  · rw [busWrite_cart]
    split
    · exact Mapper.sameRom_cpuWrite _ _ _
    · exact Mapper.SameRom.refl _

theorem Keeps.effective (m : Mem) (s : State) : Keeps s (effective m s).state := by
  rw [effective_state]
  exact (Keeps.refl s).cpu _

theorem Keeps.push (v : Byte) (s : State) : Keeps s (push v s) := (Keeps.busWrite _ _ _).cpu _

theorem Keeps.pull (s : State) : Keeps s (pull s).2 := ((Keeps.refl s).cpu _).trans (Keeps.busRead _ _)

theorem Keeps.push16 (w : Word) (s : State) : Keeps s (push16 w s) := (Keeps.push _ _).trans (Keeps.push _ _)

theorem Keeps.pull16 (s : State) : Keeps s (pull16 s).2 := (Keeps.pull _).trans (Keeps.pull _)

theorem Keeps.read16 (a : Word) (s : State) : Keeps s (read16 a s).2 := (Keeps.busRead _ _).trans (Keeps.busRead _ _)

theorem Keeps.enterInterrupt (vector ret : Word) (b : Bool) (s : State) : Keeps s (enterInterrupt vector ret b s) :=
  (((((Keeps.push16 _ _).trans (Keeps.push _ _)).cpu _).trans (Keeps.read16 _ _)).cpu _).cpu _

theorem Keeps.returnFromInterrupt (s : State) : Keeps s (returnFromInterrupt s) :=
  (((Keeps.pull _).cpu _).trans (Keeps.pull16 _)).cpu _

theorem Keeps.writeMem (n : Nat) (v : Byte) (m : Mem) (s : State) : Keeps s (writeMem n v m s) :=
  ((Keeps.effective m s).trans (Keeps.busWrite _ _ _)).cpu _

theorem Keeps.modifyMem (n : Nat) (f : Flags → Byte → Byte × Flags) (m : Mem) (s : State) :
    Keeps s (modifyMem n f m s) :=
  ((((Keeps.effective m s).trans (Keeps.busRead _ _)).trans (Keeps.busWrite _ _ _)).cpu _).cpu _

theorem Keeps.readMem (n : Nat) {f : Byte → State → State} (hf : ∀ v u, Keeps u (f v u)) (m : Mem) (s : State) :
    Keeps s (readMem n f m s) :=
  (((Keeps.effective m s).trans (Keeps.busRead _ _)).trans (hf _ _)).cpu _

theorem Keeps.fetchByte (s : State) : Keeps s (fetchByte s).2 := (Keeps.busRead _ _).cpu _

theorem Keeps.fetch {s t : State} {i : Instr} (h : fetch s = .instr i t) : Keeps s t := by
  simp only [Sys2Proof.Machine.fetch] at h
  split at h <;> cases h
  · exact Keeps.fetchByte _
  · exact (Keeps.fetchByte _).trans (Keeps.fetchByte _)
  · exact ((Keeps.fetchByte _).trans (Keeps.fetchByte _)).trans (Keeps.fetchByte _)

theorem Keeps.nmiSample (l : Bool) (s : State) : Keeps s (nmiSample l s) := by
  unfold Sys2Proof.Machine.nmiSample
  split
  · exact ((Keeps.refl s).cpu _).cpu _
  · exact (Keeps.refl s).cpu _

theorem Keeps.apuStep (s : State) : Keeps s (apuStep s) := by
  have e : Keeps s ((s.setApu (s.env.apuTick.onApu s.apu)).setEnv { s.env with apu := s.env.apu.tail }) :=
    ⟨rfl, rfl, id, id, Mapper.SameRom.refl _, rfl, rfl, id⟩
  unfold Sys2Proof.Machine.apuStep
  simp only
  split
  · next a _ =>
    obtain ⟨k1, k2, k3, k4, k5, k6, k7, k8⟩ :=
      Keeps.busRead a ((s.setApu (s.env.apuTick.onApu s.apu)).setEnv { s.env with apu := s.env.apu.tail })
    exact e.trans ⟨k1, k2, k3, k4, k5, k6, k7, k8⟩
  · exact e

/-- The operation of every read-class mnemonic changes only the CPU's own fields. -/
theorem Keeps.readOp (k : Mnemonic) (v : Byte) (s : State) : Keeps s (readOp k v s) := by
  cases k <;> exact (Keeps.refl s).cpu _

end Sys2Proof.Machine
end

