-- ==== Sys2Proof/Tests/Slice0.lean ====
section
/-! SUPPORT. The model's own tests: ill-formed bytes refused, words spelled from the encodings, the vectors of
spec/95_test_vectors.md (sections 2 to 9, each test named with its id), and a witness for the hypotheses of every obligation. -/

namespace Sys2Proof.Tests

set_option Elab.async false

open Sys2Proof Sys2Proof.Machine

/-! ### Ill-formed bytes (30_encoding.md R116, R117) -/

theorem test_wf_refuses_nothing : WellFormedBytes [] = false := by decide
theorem test_wf_refuses_undocumented : WellFormedBytes [0x02] = false := by decide
theorem test_wf_refuses_truncated : WellFormedBytes [0xA9] = false := by decide
theorem test_wf_refuses_truncated_word : WellFormedBytes [0x4C, 0x00] = false := by decide
theorem test_wf_refuses_trailing : WellFormedBytes [0xEA, 0x00] = false := by decide
theorem test_wf_accepts : WellFormedBytes [0x4C, 0x00, 0xC0] = true := by decide

theorem test_decode_empty : decode [] = .error .empty := by decide
theorem test_decode_undocumented : decode [0x02, 0x00] = .error (.undocumentedOpcode 0x02) := by decide +kernel
theorem test_decode_truncated : decode [0xAD, 0x00] = .error (.truncated 0xAD) := by decide +kernel

/-! ### Words written out bit by bit (R111, R115) -/

theorem test_decode_lda_indy : decode [0b10110001#8, 0b00010000#8] = .ok (.ldaIndy 0x10, []) := by decide +kernel
theorem test_decode_stx_zpy : decode [0b10010110#8, 0b10000000#8] = .ok (.stxZpy 0x80, []) := by decide +kernel
theorem test_decode_txs : decode [0b10011010#8] = .ok (.txs, []) := by decide +kernel
theorem test_decode_pla : decode [0b01101000#8] = .ok (.pla, []) := by decide +kernel
theorem test_decode_sbc_absy : decode [0b11111001#8, 0b00110100#8, 0b00010010#8] = .ok (.sbcAbsy 0x1234, []) := by
  decide +kernel
theorem test_decode_bit_abs : decode [0b00101100#8, 0b00000010#8, 0b00100000#8] = .ok (.bitAbs 0x2002, []) := by
  decide +kernel
theorem test_decode_dec_absx : decode [0b11011110#8, 0b00000000#8, 0b00000011#8] = .ok (.decAbsx 0x0300, []) := by
  decide +kernel
theorem test_decode_lsr_acc : decode [0b01001010#8] = .ok (.lsrAcc, []) := by decide +kernel
theorem test_decode_bvs : decode [0b01110000#8, 0b11111110#8] = .ok (.bvs 0xFE, []) := by decide +kernel
theorem test_decode_jsr : decode [0b00100000#8, 0b00000000#8, 0b10010000#8] = .ok (.jsr 0x9000, []) := by decide +kernel
theorem test_decode_sei : decode [0b01111000#8] = .ok (.sei, []) := by decide +kernel
theorem test_decode_brk : decode [0b00000000#8] = .ok (.brk, []) := by decide +kernel
theorem test_encode_jmp_ind : encode (.jmpInd 0x02FF) = [0x6C, 0xFF, 0x02] := by decide
theorem test_decode_table_word : decodeTableWord 8 0xA9 = some (.ldaImm 0x00) := by decide +kernel
theorem test_decode_table_operand : decodeTableWord 24 0x1234AD = some (.ldaAbs 0x1234) := by decide +kernel

/-! ### The vectors of spec/95_test_vectors.md -/

/-- The section-0 start state with code at 0x8000: NROM, one bank, NMI to 0x9000, RESET to 0x8000, IRQ to 0xA000. -/
def start (code : List Byte) : State :=
  State.powerOn Params.default ResetRegs.default []
    { Mapper.blank with prgRom := Memory.ofBytes 0 code ++ [(0x3FFB, 0x90), (0x3FFD, 0x80), (0x3FFF, 0xA0)] }

/-- What a CPU step from a state leaves, seen through `f`. -/
def after {α : Type} (s : State) (f : State → α) : Option α :=
  match cpuStep s with
  | .next t => some (f t)
  | _ => none

/-- LS1. -/
theorem test_lda_imm_zero : after (start [0xA9, 0x00]) (fun t => (t.cpu.a, t.cpu.pc, t.cpu.p, t.cpu.cyclesRemaining)) =
    some (0x00, 0x8002, ⟨false, false, false, true, true, false⟩, 1) := by
  decide +kernel

/-- LS2. -/
theorem test_lda_imm_negative : after (start [0xA9, 0x80]) (fun t => (t.cpu.a, t.cpu.pc, t.cpu.p, t.cpu.cyclesRemaining)) =
    some (0x80, 0x8002, ⟨true, false, false, true, false, false⟩, 1) := by
  decide +kernel

/-- LS3. -/
theorem test_lda_zpx_wraps : after (((start [0xB5, 0x10]).setX 0xFF).setRam [(0xF, 0x5A)]) (fun t => (t.cpu.a, t.cpu.pc, t.cpu.cyclesRemaining)) =
    some (0x5A, 0x8002, 3) := by
  decide +kernel

/-- LS4. -/
theorem test_lda_absx_crossed_mirror : after (((start [0xBD, 0xFF, 0x12]).setX 0x01).setRam [(0x300, 0x77)]) (fun t => (t.cpu.a, t.cpu.pc, t.cpu.cyclesRemaining)) =
    some (0x77, 0x8003, 4) := by
  decide +kernel

/-- LS5. -/
theorem test_lda_absx : after (((start [0xBD, 0x00, 0x02]).setX 0x01).setRam [(0x201, 0x01)]) (fun t => (t.cpu.a, t.cpu.pc, t.cpu.cyclesRemaining)) =
    some (0x01, 0x8003, 3) := by
  decide +kernel

/-- LS6. -/
theorem test_lda_indx_pointer_wraps : after ((start [0xA1, 0xFF]).setRam [(0x0, 0x02), (0xFF, 0x34), (0x234, 0x99)]) (fun t => (t.cpu.a, t.cpu.pc, t.cpu.p, t.cpu.cyclesRemaining)) =
    some (0x99, 0x8002, ⟨true, false, false, true, false, false⟩, 5) := by
  decide +kernel

/-- LS7. -/
theorem test_lda_indy_pointer_wraps : after (((start [0xB1, 0xFF]).setY 0x10).setRam [(0x0, 0x02), (0xFF, 0xF8), (0x308, 0x42)]) (fun t => (t.cpu.a, t.cpu.pc, t.cpu.cyclesRemaining)) =
    some (0x42, 0x8002, 5) := by
  decide +kernel

/-- LS8. -/
theorem test_ldx_zpy_wraps : after (((start [0xB6, 0xF0]).setX 0x55).setY 0x20) (fun t => (t.cpu.x, t.cpu.pc, t.cpu.p, t.cpu.cyclesRemaining)) =
    some (0x00, 0x8002, ⟨false, false, false, true, true, false⟩, 3) := by
  decide +kernel

/-- LS9. -/
theorem test_sta_abs_mirror : after ((start [0x8D, 0x00, 0x08]).setA 0xAB) (fun t => (t.ram.read 0x0, t.cpu.pc, t.cpu.cyclesRemaining)) =
    some (0xAB, 0x8003, 3) := by
  decide +kernel

/-- LS10. -/
theorem test_sta_abs_last_mirror : after ((start [0x8D, 0xFF, 0x1F]).setA 0xCD) (fun t => (t.ram.read 0x7FF, t.cpu.pc, t.cpu.cyclesRemaining)) =
    some (0xCD, 0x8003, 3) := by
  decide +kernel

/-- LS11. -/
theorem test_sta_absx_fixed_count : after (((start [0x9D, 0xFF, 0x02]).setA 0x11).setX 0x01) (fun t => (t.ram.read 0x300, t.cpu.pc, t.cpu.cyclesRemaining)) =
    some (0x11, 0x8003, 4) := by
  decide +kernel

/-- LS12. -/
theorem test_sta_indy : after ((((start [0x91, 0x20]).setA 0x22).setY 0x10).setRam [(0x20, 0xF0), (0x21, 0x02)]) (fun t => (t.ram.read 0x300, t.cpu.pc, t.cpu.cyclesRemaining)) =
    some (0x22, 0x8002, 5) := by
  decide +kernel

/-- LS13. -/
theorem test_ldy_imm_clears_n : after (((start [0xA0, 0x00]).setY 0x80).setP ⟨true, false, false, true, false, false⟩) (fun t => (t.cpu.y, t.cpu.p, t.cpu.cyclesRemaining)) =
    some (0x00, ⟨false, false, false, true, true, false⟩, 1) := by
  decide +kernel

/-- LS14. -/
theorem test_stx_zp : after ((start [0x86, 0xFF]).setX 0x3C) (fun t => (t.ram.read 0xFF, t.cpu.pc, t.cpu.cyclesRemaining)) =
    some (0x3C, 0x8002, 2) := by
  decide +kernel

/-- LS15. -/
theorem test_sty_zpx_wraps : after (((start [0x94, 0x10]).setX 0xF5).setY 0x3D) (fun t => (t.ram.read 0x5, t.cpu.pc, t.cpu.cyclesRemaining)) =
    some (0x3D, 0x8002, 3) := by
  decide +kernel

/-- TS1. -/
theorem test_tax : after ((start [0xAA]).setX 0x12) (fun t => (t.cpu.x, t.cpu.pc, t.cpu.p, t.cpu.cyclesRemaining)) =
    some (0x00, 0x8001, ⟨false, false, false, true, true, false⟩, 1) := by
  decide +kernel

/-- TS2. -/
theorem test_txs_no_flags : after ((start [0x9A]).setP ⟨true, false, false, true, false, false⟩) (fun t => (t.cpu.sp, t.cpu.p, t.cpu.cyclesRemaining)) =
    some (0x00, ⟨true, false, false, true, false, false⟩, 1) := by
  decide +kernel

/-- TS3. -/
theorem test_tsx : after (start [0xBA]) (fun t => (t.cpu.x, t.cpu.p, t.cpu.cyclesRemaining)) =
    some (0xFD, ⟨true, false, false, true, false, false⟩, 1) := by
  decide +kernel

/-- TS4. -/
theorem test_tya : after ((start [0x98]).setY 0x80) (fun t => (t.cpu.a, t.cpu.p, t.cpu.cyclesRemaining)) =
    some (0x80, ⟨true, false, false, true, false, false⟩, 1) := by
  decide +kernel

/-- TS5. -/
theorem test_pha_wraps : after (((start [0x48]).setA 0x5E).setSp 0x00) (fun t => (t.ram.read 0x100, t.cpu.sp, t.cpu.cyclesRemaining)) =
    some (0x5E, 0xFF, 2) := by
  decide +kernel

/-- TS6. -/
theorem test_pla_wraps : after (((start [0x68]).setA 0x33).setSp 0xFF) (fun t => (t.cpu.a, t.cpu.sp, t.cpu.p, t.cpu.cyclesRemaining)) =
    some (0x00, 0x00, ⟨false, false, false, true, true, false⟩, 3) := by
  decide +kernel

/-- TS7. -/
theorem test_php : after (start [0x08]) (fun t => (t.ram.read 0x1FD, t.cpu.sp, t.cpu.cyclesRemaining)) =
    some (0x34, 0xFC, 2) := by
  decide +kernel

/-- TS8. -/
theorem test_plp : after ((((start [0x28]).setSp 0xFC).setP ⟨false, false, false, false, false, false⟩).setRam [(0x1FD, 0xFF)]) (fun t => (t.cpu.sp, t.cpu.p, t.cpu.cyclesRemaining)) =
    some (0xFD, ⟨true, true, true, true, true, true⟩, 3) := by
  decide +kernel

/-- TS9. -/
theorem test_plp_ignores_bits_5_4 : after ((((start [0x28]).setSp 0xFC).setP ⟨false, false, false, true, true, false⟩).setRam [(0x1FD, 0x30)]) (fun t => (t.cpu.p, t.cpu.cyclesRemaining)) =
    some (⟨false, false, false, false, false, false⟩, 3) := by
  decide +kernel

/-- AL2. -/
theorem test_adc_imm_overflow : after ((start [0x69, 0x01]).setA 0x7F) (fun t => (t.cpu.a, t.cpu.p, t.cpu.cyclesRemaining)) =
    some (0x80, ⟨true, true, false, true, false, false⟩, 1) := by
  decide +kernel

/-- AL5. -/
theorem test_adc_imm_not_decimal : after (((start [0x69, 0x01]).setA 0x09).setP ⟨false, false, true, true, false, false⟩) (fun t => (t.cpu.a, t.cpu.p, t.cpu.cyclesRemaining)) =
    some (0x0A, ⟨false, false, true, true, false, false⟩, 1) := by
  decide +kernel

/-- AL8. -/
theorem test_sbc_imm_overflow : after (((start [0xE9, 0x01]).setA 0x80).setP ⟨false, false, false, true, false, true⟩) (fun t => (t.cpu.a, t.cpu.p, t.cpu.cyclesRemaining)) =
    some (0x7F, ⟨false, true, false, true, false, true⟩, 1) := by
  decide +kernel

/-- AL9. -/
theorem test_sbc_imm_borrow_in : after (start [0xE9, 0x00]) (fun t => (t.cpu.a, t.cpu.p, t.cpu.cyclesRemaining)) =
    some (0xFF, ⟨true, false, false, true, false, false⟩, 1) := by
  decide +kernel

/-- AL13. -/
theorem test_and_imm : after ((start [0x29, 0x0F]).setA 0xF0) (fun t => (t.cpu.a, t.cpu.p, t.cpu.cyclesRemaining)) =
    some (0x00, ⟨false, false, false, true, true, false⟩, 1) := by
  decide +kernel

/-- AL14. -/
theorem test_ora_imm : after ((start [0x09, 0x80]).setA 0x01) (fun t => (t.cpu.a, t.cpu.p, t.cpu.cyclesRemaining)) =
    some (0x81, ⟨true, false, false, true, false, false⟩, 1) := by
  decide +kernel

/-- AL15. -/
theorem test_eor_imm : after ((start [0x49, 0xFF]).setA 0xFF) (fun t => (t.cpu.a, t.cpu.p, t.cpu.cyclesRemaining)) =
    some (0x00, ⟨false, false, false, true, true, false⟩, 1) := by
  decide +kernel

/-- AL16. -/
theorem test_bit_zp : after (((start [0x24, 0x10]).setA 0x01).setRam [(0x10, 0xC0)]) (fun t => (t.cpu.a, t.cpu.p, t.cpu.cyclesRemaining)) =
    some (0x01, ⟨true, true, false, true, true, false⟩, 2) := by
  decide +kernel

/-- AL18. -/
theorem test_cmp_imm_equal : after ((start [0xC9, 0x10]).setA 0x10) (fun t => (t.cpu.a, t.cpu.p, t.cpu.cyclesRemaining)) =
    some (0x10, ⟨false, false, false, true, true, true⟩, 1) := by
  decide +kernel

/-- AL19. -/
theorem test_cmp_imm_less : after ((start [0xC9, 0xFF]).setA 0x01) (fun t => (t.cpu.p, t.cpu.cyclesRemaining)) =
    some (⟨false, false, false, true, false, false⟩, 1) := by
  decide +kernel

/-- AL21. -/
theorem test_cpx_imm : after ((start [0xE0, 0x00]).setX 0x80) (fun t => (t.cpu.p, t.cpu.cyclesRemaining)) =
    some (⟨true, false, false, true, false, true⟩, 1) := by
  decide +kernel

/-- AL22. -/
theorem test_cpy_zp_keeps_v : after ((((start [0xC4, 0x10]).setY 0x05).setP ⟨false, true, false, true, false, false⟩).setRam [(0x10, 0x06)]) (fun t => (t.cpu.p, t.cpu.cyclesRemaining)) =
    some (⟨true, true, false, true, false, false⟩, 2) := by
  decide +kernel

/-- ID1. -/
theorem test_inc_zp_wraps : after ((start [0xE6, 0x10]).setRam [(0x10, 0xFF)]) (fun t => (t.ram.read 0x10, t.cpu.p, t.cpu.cyclesRemaining)) =
    some (0x00, ⟨false, false, false, true, true, false⟩, 4) := by
  decide +kernel

/-- ID2. -/
theorem test_dec_zp_wraps : after (start [0xC6, 0x10]) (fun t => (t.ram.read 0x10, t.cpu.p, t.cpu.cyclesRemaining)) =
    some (0xFF, ⟨true, false, false, true, false, false⟩, 4) := by
  decide +kernel

/-- ID3. -/
theorem test_inx : after ((start [0xE8]).setX 0x7F) (fun t => (t.cpu.x, t.cpu.p, t.cpu.cyclesRemaining)) =
    some (0x80, ⟨true, false, false, true, false, false⟩, 1) := by
  decide +kernel

/-- ID4. -/
theorem test_dey : after ((start [0x88]).setY 0x01) (fun t => (t.cpu.y, t.cpu.p, t.cpu.cyclesRemaining)) =
    some (0x00, ⟨false, false, false, true, true, false⟩, 1) := by
  decide +kernel

/-- ID5. -/
theorem test_dex_wraps : after (start [0xCA]) (fun t => (t.cpu.x, t.cpu.p, t.cpu.cyclesRemaining)) =
    some (0xFF, ⟨true, false, false, true, false, false⟩, 1) := by
  decide +kernel

/-- ID6. -/
theorem test_inc_absx_fixed_count : after (((start [0xFE, 0xFF, 0x02]).setX 0x01).setRam [(0x300, 0x41)]) (fun t => (t.ram.read 0x300, t.cpu.pc, t.cpu.cyclesRemaining)) =
    some (0x42, 0x8003, 6) := by
  decide +kernel

/-- ID7. -/
theorem test_asl_acc : after ((start [0x0A]).setA 0x80) (fun t => (t.cpu.a, t.cpu.p, t.cpu.cyclesRemaining)) =
    some (0x00, ⟨false, false, false, true, true, true⟩, 1) := by
  decide +kernel

/-- ID8. -/
theorem test_asl_zp : after (((start [0x06, 0x10]).setP ⟨false, false, false, true, false, true⟩).setRam [(0x10, 0x41)]) (fun t => (t.ram.read 0x10, t.cpu.p, t.cpu.cyclesRemaining)) =
    some (0x82, ⟨true, false, false, true, false, false⟩, 4) := by
  decide +kernel

/-- ID9. -/
theorem test_lsr_acc : after (((start [0x4A]).setA 0x01).setP ⟨true, false, false, true, false, false⟩) (fun t => (t.cpu.a, t.cpu.p, t.cpu.cyclesRemaining)) =
    some (0x00, ⟨false, false, false, true, true, true⟩, 1) := by
  decide +kernel

/-- ID10. -/
theorem test_rol_acc : after (((start [0x2A]).setA 0x80).setP ⟨false, false, false, true, false, true⟩) (fun t => (t.cpu.a, t.cpu.p, t.cpu.cyclesRemaining)) =
    some (0x01, ⟨false, false, false, true, false, true⟩, 1) := by
  decide +kernel

/-- ID11. -/
theorem test_ror_acc : after (((start [0x6A]).setA 0x01).setP ⟨false, false, false, true, false, true⟩) (fun t => (t.cpu.a, t.cpu.p, t.cpu.cyclesRemaining)) =
    some (0x80, ⟨true, false, false, true, false, true⟩, 1) := by
  decide +kernel

/-- ID12. -/
theorem test_ror_zp : after ((start [0x66, 0x10]).setRam [(0x10, 0x02)]) (fun t => (t.ram.read 0x10, t.cpu.p, t.cpu.cyclesRemaining)) =
    some (0x01, ⟨false, false, false, true, false, false⟩, 4) := by
  decide +kernel

/-- CT1. -/
theorem test_bne_taken : after (start [0xD0, 0x10]) (fun t => (t.cpu.pc, t.cpu.cyclesRemaining)) =
    some (0x8012, 2) := by
  decide +kernel

/-- CT2. -/
theorem test_bne_not_taken : after ((start [0xD0, 0x10]).setP ⟨false, false, false, true, true, false⟩) (fun t => (t.cpu.pc, t.cpu.cyclesRemaining)) =
    some (0x8002, 1) := by
  decide +kernel

/-- CT3. -/
theorem test_beq_taken_to_next : after ((start [0xF0, 0x00]).setP ⟨false, false, false, true, true, false⟩) (fun t => (t.cpu.pc, t.cpu.cyclesRemaining)) =
    some (0x8002, 2) := by
  decide +kernel

/-- CT4. -/
theorem test_bpl_page_below : after (start [0x10, 0xFD]) (fun t => (t.cpu.pc, t.cpu.cyclesRemaining)) =
    some (0x7FFF, 3) := by
  decide +kernel

/-- CT5. -/
theorem test_bcs_forward : after ((start [0xB0, 0x7F]).setP ⟨false, false, false, true, false, true⟩) (fun t => (t.cpu.pc, t.cpu.cyclesRemaining)) =
    some (0x8081, 2) := by
  decide +kernel

/-- CT6. -/
theorem test_bmi_itself : after ((start [0x30, 0xFE]).setP ⟨true, false, false, true, false, false⟩) (fun t => (t.cpu.pc, t.cpu.cyclesRemaining)) =
    some (0x8000, 2) := by
  decide +kernel

/-- CT7. -/
theorem test_bvc_not_taken : after ((start [0x50, 0x10]).setP ⟨false, true, false, true, false, false⟩) (fun t => (t.cpu.pc, t.cpu.cyclesRemaining)) =
    some (0x8002, 1) := by
  decide +kernel

/-- CT8. -/
theorem test_jmp_abs : after (start [0x4C, 0x00, 0xC0]) (fun t => (t.cpu.pc, t.cpu.cyclesRemaining)) =
    some (0xC000, 2) := by
  decide +kernel

/-- CT9. -/
theorem test_jmp_ind_page_wrap : after ((start [0x6C, 0xFF, 0x02]).setRam [(0x200, 0x12), (0x2FF, 0x34), (0x300, 0x56)]) (fun t => (t.cpu.pc, t.cpu.cyclesRemaining)) =
    some (0x1234, 4) := by
  decide +kernel

/-- CT10. -/
theorem test_jsr : after (start [0x20, 0x00, 0x90]) (fun t => (t.ram.read 0x1FD, t.ram.read 0x1FC, t.cpu.sp, t.cpu.pc, t.cpu.cyclesRemaining)) =
    some (0x80, 0x02, 0xFB, 0x9000, 5) := by
  decide +kernel

/-- CT11. -/
theorem test_jsr_stack_wraps : after ((start [0x20, 0x00, 0x90]).setSp 0x00) (fun t => (t.ram.read 0x100, t.ram.read 0x1FF, t.cpu.sp, t.cpu.cyclesRemaining)) =
    some (0x80, 0x02, 0xFE, 5) := by
  decide +kernel

/-- CT12. -/
theorem test_rts : after (((start [0x60]).setSp 0xFB).setRam [(0x1FC, 0x02), (0x1FD, 0x80)]) (fun t => (t.cpu.sp, t.cpu.pc, t.cpu.cyclesRemaining)) =
    some (0xFD, 0x8003, 5) := by
  decide +kernel

/-- CT13. -/
theorem test_rts_pc_wraps : after (((start [0x60]).setSp 0xFB).setRam [(0x1FC, 0xFF), (0x1FD, 0xFF)]) (fun t => (t.cpu.pc, t.cpu.cyclesRemaining)) =
    some (0x0000, 5) := by
  decide +kernel

/-- FS1. -/
theorem test_clc : after ((start [0x18]).setP ⟨false, false, false, true, false, true⟩) (fun t => (t.cpu.p, t.cpu.pc, t.cpu.cyclesRemaining)) =
    some (⟨false, false, false, true, false, false⟩, 0x8001, 1) := by
  decide +kernel

/-- FS2. -/
theorem test_sec : after (start [0x38]) (fun t => (t.cpu.p, t.cpu.cyclesRemaining)) =
    some (⟨false, false, false, true, false, true⟩, 1) := by
  decide +kernel

/-- FS3. -/
theorem test_cli : after (start [0x58]) (fun t => (t.cpu.p, t.cpu.cyclesRemaining)) =
    some (⟨false, false, false, false, false, false⟩, 1) := by
  decide +kernel

/-- FS4. -/
theorem test_sei : after ((start [0x78]).setP ⟨false, false, false, false, false, false⟩) (fun t => (t.cpu.p, t.cpu.cyclesRemaining)) =
    some (⟨false, false, false, true, false, false⟩, 1) := by
  decide +kernel

/-- FS5. -/
theorem test_clv : after ((start [0xB8]).setP ⟨false, true, false, true, false, false⟩) (fun t => (t.cpu.p, t.cpu.cyclesRemaining)) =
    some (⟨false, false, false, true, false, false⟩, 1) := by
  decide +kernel

/-- FS6. -/
theorem test_sed : after (start [0xF8]) (fun t => (t.cpu.p, t.cpu.cyclesRemaining)) =
    some (⟨false, false, true, true, false, false⟩, 1) := by
  decide +kernel

/-- FS7. -/
theorem test_cld : after ((start [0xD8]).setP ⟨false, false, true, true, false, false⟩) (fun t => (t.cpu.p, t.cpu.cyclesRemaining)) =
    some (⟨false, false, false, true, false, false⟩, 1) := by
  decide +kernel

/-- FS8. -/
theorem test_nop : after (start [0xEA]) (fun t => (t.cpu.pc, t.cpu.p, t.cpu.cyclesRemaining)) =
    some (0x8001, ⟨false, false, false, true, false, false⟩, 1) := by
  decide +kernel

/-- FS9. -/
theorem test_brk : after ((start [0x00]).setP ⟨false, false, false, false, true, false⟩) (fun t => (t.ram.read 0x1FD, t.ram.read 0x1FC, t.ram.read 0x1FB, t.cpu.pc, t.cpu.cyclesRemaining)) =
    some (0x80, 0x02, 0x32, 0xA000, 6) := by
  decide +kernel

/-- FS9. -/
theorem test_brk_registers : after ((start [0x00]).setP ⟨false, false, false, false, true, false⟩) (fun t => (t.cpu.sp, t.cpu.p, t.cpu.cyclesRemaining)) =
    some (0xFA, ⟨false, false, false, true, true, false⟩, 6) := by
  decide +kernel

/-- FS10. -/
theorem test_rti : after (((start [0x40]).setSp 0xFA).setRam [(0x1FB, 0x32), (0x1FC, 0x02), (0x1FD, 0x80)]) (fun t => (t.cpu.sp, t.cpu.pc, t.cpu.p, t.cpu.cyclesRemaining)) =
    some (0xFD, 0x8002, ⟨false, false, false, false, true, false⟩, 5) := by
  decide +kernel

/-- FS11. -/
theorem test_rti_all_flags : after (((start [0x40]).setSp 0xFA).setRam [(0x1FB, 0xFF), (0x1FD, 0x90)]) (fun t => (t.cpu.pc, t.cpu.p, t.cpu.cyclesRemaining)) =
    some (0x9000, ⟨true, true, true, true, true, true⟩, 5) := by
  decide +kernel

/-- OB1. -/
theorem test_lda_abs_open_bus : after (start [0xAD, 0x18, 0x40]) (fun t => (t.cpu.a, t.cpu.openBus, t.cpu.cyclesRemaining)) =
    some (0x40, 0x40, 3) := by
  decide +kernel

/-- OB2. -/
theorem test_lda_abs_unmapped_cart : after (start [0xAD, 0x00, 0x50]) (fun t => (t.cpu.a, t.cpu.cyclesRemaining)) =
    some (0x50, 3) := by
  decide +kernel

/-- OB3. -/
theorem test_lda_indy_open_bus : after (((start [0xB1, 0x80]).setY 0x05).setRam [(0x81, 0x40)]) (fun t => (t.cpu.a, t.cpu.cyclesRemaining)) =
    some (0x40, 4) := by
  decide +kernel

/-- OB5. -/
theorem test_sta_abs_open_bus : after ((start [0x8D, 0x18, 0x40]).setA 0x99) (fun t => (t.cpu.openBus, t.cpu.cyclesRemaining)) =
    some (0x99, 3) := by
  decide +kernel

/-! ### Undocumented opcodes, interrupts, stalls and DMA (section 7) -/

/-- Why a CPU step stops, if it does. -/
def stop (s : State) : Option (Fault ⊕ Refusal) :=
  match cpuStep s with
  | .next _ => none
  | .fault e => some (.inl e)
  | .refused e => some (.inr e)

/-- UD1, UD2. -/
theorem test_undocumented_refused : stop (start [0x02]) = some (.inr (.undocumentedOpcode 0x02 0x8000)) ∧
    stop (start [0xFF]) = some (.inr (.undocumentedOpcode 0xFF 0x8000)) := by
  decide +kernel

/-- UD3: the twelve halting bytes under `stuck`. -/
theorem test_undocumented_stuck :
    stop { start [0x02] with params := { Params.default with unofficial := .stuck } } =
      some (.inl (.jam 0x02 0x8000)) := by
  decide +kernel

/-- The start state with the frame interrupt asserted and flags `p`. -/
def startIrq (p : Flags) (code : List Byte) : State :=
  let s := (start code).setP p
  s.setApu { s.apu with frameIrq := true }

/-- IN1. -/
theorem test_irq_entry : after (startIrq ⟨false, false, false, false, false, true⟩ [0xEA])
    (fun t => (t.ram.read 0x1FD, t.ram.read 0x1FC, t.ram.read 0x1FB, t.cpu.sp, t.cpu.pc)) =
    some (0x80, 0x00, 0x21, 0xFA, 0xA000) := by
  decide +kernel

/-- IN2. -/
theorem test_irq_masked : after (startIrq ⟨false, false, false, true, false, false⟩ [0xEA]) (fun t => t.cpu.pc) =
    some 0x8001 := by
  decide +kernel

/-- IN3. -/
theorem test_nmi_entry : after ((start [0xEA]).setNmiPending true)
    (fun t => (t.ram.read 0x1FB, t.cpu.sp, t.cpu.pc, t.cpu.nmiPending, t.cpu.cyclesRemaining)) =
    some (0x24, 0xFA, 0x9000, false, 6) := by
  decide +kernel

/-- IN4. -/
theorem test_nmi_before_irq :
    after ((startIrq ⟨false, false, false, false, false, false⟩ [0xEA]).setNmiPending true)
      (fun t => (t.ram.read 0x1FB, t.cpu.pc, t.cpu.p.i)) = some (0x20, 0x9000, true) := by
  decide +kernel

/-- DMA1, DMA2: the stall by the parity of the writing step; `open_bus` is the last byte copied. -/
theorem test_dma_stall :
    (busWrite 0x4014 0x02 ((start []).setRam [(0x2FF, 0xFF)])).cpu.stallRemaining = 513 ∧
      (busWrite 0x4014 0x02 ((start []).setRam [(0x2FF, 0xFF)])).cpu.openBus = 0xFF ∧
      (busWrite 0x4014 0x02 (start []).toggleOdd).cpu.stallRemaining = 514 := by
  decide +kernel

/-! ### Mappers (section 8, E2) -/

/-- Eight banks, byte 0 of bank b is b, its last byte 0xF0 + b. -/
def bankBytes : Memory :=
  [(0x3FFF, 0xF0), (0x4000, 1), (0x7FFF, 0xF1), (0x8000, 2), (0xBFFF, 0xF2), (0xC000, 3), (0xFFFF, 0xF3),
    (0x10000, 4), (0x13FFF, 0xF4), (0x14000, 5), (0x17FFF, 0xF5), (0x18000, 6), (0x1BFFF, 0xF6), (0x1C000, 7),
    (0x1FFFF, 0xF7)]

/-- A cartridge with those banks. -/
def banked (chip : Chip) (prgBanks : Nat) : Mapper :=
  { Mapper.blank with chip := chip, prgBanks := prgBanks, prgRom := bankBytes, chrBanks := 4 }

/-- The MMC1 after writes of single bits to one address, in order. -/
def shiftIn (a : Word) (bits : List Byte) (m : Mapper) : Mapper := bits.foldl (fun m v => m.cpuWrite a v) m

/-- MMC1 at power-on. -/
def mmc1Cart : Mapper := banked (.mmc1 (Mmc1.powerOn .horizontal)) 8

/-- MP1, MP2. -/
theorem test_nrom_mirrors : (banked .nrom 1).cpuRead 0xFFFF 0 = 0xF0 ∧ (banked .nrom 1).cpuRead 0x6000 0x5A = 0x5A ∧
    (banked .nrom 2).cpuRead 0xC000 0 = 0x01 := by decide +kernel

/-- MP4. -/
theorem test_mmc1_power_on : mmc1Cart.cpuRead 0x8000 0 = 0x00 ∧ mmc1Cart.cpuRead 0xC000 0 = 0x07 := by decide +kernel

/-- MP5. -/
theorem test_mmc1_reset_write :
    (shiftIn 0xE000 [1, 1, 1] mmc1Cart).chip = .mmc1 { Mmc1.powerOn .horizontal with shift := 0x1E } ∧
      ((shiftIn 0xE000 [1, 1, 1] mmc1Cart).cpuWrite 0x8000 0x80).chip = .mmc1 (Mmc1.powerOn .horizontal) := by
  decide +kernel

/-- E2. -/
theorem test_mmc1_prg_bank : (shiftIn 0xE000 [1, 0, 1, 1, 1] mmc1Cart).chip =
    .mmc1 { Mmc1.powerOn .horizontal with prgBank := 0x0D } := by decide +kernel

/-- MP7. -/
theorem test_mmc1_control : (shiftIn 0x8000 [0, 1, 1, 1, 0] mmc1Cart).chip =
    .mmc1 { Mmc1.powerOn .horizontal with mirroring := .vertical, prgMode := 3, chrMode := false } := by decide +kernel

/-- MP8, MP9, MP11. -/
theorem test_mmc1_prg_modes :
    (banked (.mmc1 { Mmc1.powerOn .horizontal with prgMode := 2, prgBank := 3 }) 8).cpuRead 0xC000 0 = 0x03 ∧
      (banked (.mmc1 { Mmc1.powerOn .horizontal with prgMode := 0, prgBank := 3 }) 8).cpuRead 0x8000 0 = 0x02 ∧
      (shiftIn 0xE000 [1, 1, 1, 1, 1] mmc1Cart).cpuRead 0x8000 0 = 0x07 := by decide +kernel

/-- MP13. -/
theorem test_uxrom : ((banked (.uxrom 0) 4).cpuWrite 0xFFFF 5).cpuRead 0x8000 0 = 0x01 ∧
    ((banked (.uxrom 0) 4).cpuWrite 0xFFFF 5).cpuRead 0xC000 0 = 0x03 ∧
    ((banked (.uxrom 5) 4).cpuWrite 0x6000 1).chip = .uxrom 5 := by decide +kernel

/-- MP12, MP14: the CHR offsets. -/
theorem test_chr_banks :
    (banked (.mmc1 { Mmc1.powerOn .horizontal with chrBank0 := 3, chrBank1 := 5 }) 8).chrOffset 0 = 0x2000 ∧
      (banked (.mmc1 { Mmc1.powerOn .horizontal with chrMode := true, chrBank0 := 3, chrBank1 := 5 }) 8).chrOffset 0x1000 =
        0x5000 ∧
      (banked (.cnrom 5) 2).chrOffset 0 = 0x2000 := by decide +kernel

/-- MP15. -/
theorem test_chr_ram : ({ Mapper.blank with chrBanks := 0 }.ppuWrite 0x0123 0x77).ppuRead 0x0123 = 0x77 ∧
    Mapper.blank.ppuWrite 0x0123 0x77 = Mapper.blank := by decide +kernel

/-- MP16. -/
theorem test_nametables : nametablePage .horizontal 1 = 0 ∧ nametablePage .horizontal 2 = 1 ∧
    nametablePage .vertical 1 = 1 ∧ nametablePage .vertical 2 = 0 ∧ nametablePage .oneScreenLow 3 = 0 ∧
    nametablePage .oneScreenHigh 0 = 1 := by decide

/-- R77: 0x2800 is nametable 2, which horizontal wiring puts on page 1; 0x3C05 mirrors 0x2C05, nametable 3; 0x3F00 is none. -/
theorem test_nametable_addresses : Mapper.blank.nametableAddress 0x2800 = some 0x400 ∧
    { Mapper.blank with headerMirroring := .vertical }.nametableAddress 0x3C05 = some 0x405 ∧
    Mapper.blank.nametableAddress 0x3F00 = none ∧ Mapper.blank.nametableAddress 0x1FFF = none := by decide +kernel

/-- The acts of the PPU block reach an MMC3 in the order the input gives them (log 7). -/
theorem test_ppu_acts_keep_their_order : (PpuTick.onCart ⟨[.scanlineClock, .chrWrite 0x10 0x77], false⟩
    { Mapper.blank with chip := .mmc3 [] }).chip = .mmc3 [.ppuWrite 0x10 0x77, .scanlineClock] := by decide +kernel

/-- The first image of E6: the smallest NROM image loads, and PC is its reset vector (MP1, C1). -/
theorem test_reset_vector : (start [0xEA]).cpu.pc = 0x8000 := by decide +kernel

/-- CO2, CO3. -/
theorem test_controller_strobe : (busRead 0x4016 { start [] with pad := ⟨0xA5, 0, true⟩ }).1 = 0x01 ∧
    (supplyController 0x3C (start [])).pad = ⟨0x3C, 0, false⟩ := by decide +kernel

/-- The states of a run: withFetchWord makes the next step run the instruction (log 30). -/
theorem test_with_fetch_word :
    after (State.reset.withFetchWord 16 0x80A9) (fun t => (t.cpu.a, t.cpu.pc)) = some (0x80, 0x0002) ∧
      after ((start []).withFetchWord 24 0x0200A9) (fun t => (t.cpu.a, t.cpu.pc)) = some (0x00, 0x8002) := by
  decide +kernel

/-! ### Witnesses: states and operands that meet the hypotheses of each obligation -/

theorem witness_decoded_bytes : decode [0xAD, 0x34, 0x12, 0xEA] = .ok (.ldaAbs 0x1234, [0xEA]) := by decide +kernel

theorem witness_step_runs : (start [0xA9, 0x80]).AtBoundary ∧ (start [0xA9, 0x80]).NoInterrupt ∧
    (readBytes (Instr.ldaImm 0x80).operand.length (start [0xA9, 0x80])).1 = [0xA9, 0x80] ∧
    decode [0xA9, 0x80] = .ok (.ldaImm 0x80, []) :=
  ⟨⟨rfl, rfl⟩, ⟨rfl, .inl rfl⟩, by decide +kernel, by decide +kernel⟩

/-- In ROM, and in RAM where PC wraps from 0xFFFF to 0x0000. -/
theorem witness_fetch_stored :
    (∀ j : Nat, j < 2 → (start [0xA9, 0x80]).stored (0x8000 + BitVec.ofNat 16 j) = (encode (.ldaImm 0x80))[j]?) ∧
      ∀ j : Nat, j < 3 → (((start []).setPc 0xFFFF).setRam [(0, 0xBE), (1, 0x12)]).stored (0xFFFF + BitVec.ofNat 16 j) =
        [0xA0, 0xBE, 0x12][j]? := by
  decide +kernel

theorem witness_stall : ({ start [] with cpu := { (start []).cpu with stallRemaining := 1 } }).cpu.stallRemaining ≠ 0 ∧
    ((start []).setCycles 2).cpu.stallRemaining = 0 ∧ ((start []).setCycles 2).cpu.cyclesRemaining ≠ 0 := by
  decide +kernel

/-- Each clause: the default parameter, a halting byte and another byte under `stuck`. -/
theorem witness_undocumented : (start [0x02]).AtBoundary ∧ (start [0x02]).NoInterrupt ∧
    (busRead 0x8000 (start [0x02])).1 = 0x02 ∧ (busRead 0x8000 (start [0xFF])).1 = 0xFF ∧
    (decodeOpcode 0x02).isNone = true ∧ (decodeOpcode 0xFF).isNone = true ∧ (0x02 : Byte) ∈ haltingOpcodes ∧
    (0xFF : Byte) ∉ haltingOpcodes ∧ (start [0x02]).params.unofficial = .refuse ∧
    ({ start [0x02] with params := { Params.default with unofficial := .stuck } }).params.unofficial = .stuck :=
  ⟨⟨rfl, rfl⟩, ⟨rfl, .inl rfl⟩, by decide +kernel, by decide +kernel, by decide +kernel, by decide +kernel,
    by decide, by decide, rfl, rfl⟩

/-- Every mnemonic that an obligation takes as a hypothesis is some instruction's. -/
theorem witness_mnemonics : (Instr.ldaImm 0).mnemonic = .lda ∧ (Instr.ldxImm 0).mnemonic = .ldx ∧
    (Instr.ldyImm 0).mnemonic = .ldy ∧ (Instr.staZp 0).mnemonic = .sta ∧ (Instr.stxZp 0).mnemonic = .stx ∧
    (Instr.styZp 0).mnemonic = .sty ∧ (Instr.adcImm 0).mnemonic = .adc ∧ (Instr.sbcImm 0).mnemonic = .sbc ∧
    (Instr.andImm 0).mnemonic = .and ∧ (Instr.oraImm 0).mnemonic = .ora ∧ (Instr.eorImm 0).mnemonic = .eor ∧
    (Instr.bitZp 0).mnemonic = .bit ∧ (Instr.cmpImm 0).mnemonic = .cmp ∧ (Instr.cpxImm 0).mnemonic = .cpx ∧
    (Instr.cpyImm 0).mnemonic = .cpy ∧ (Instr.incZp 0).mnemonic = .inc ∧ (Instr.decZp 0).mnemonic = .dec ∧
    Instr.aslAcc.mnemonic = .asl ∧ (Instr.lsrZp 0).mnemonic = .lsr ∧ Instr.rolAcc.mnemonic = .rol ∧
    (Instr.rorZp 0).mnemonic = .ror :=
  ⟨rfl, rfl, rfl, rfl, rfl, rfl, rfl, rfl, rfl, rfl, rfl, rfl, rfl, rfl, rfl, rfl, rfl, rfl, rfl, rfl, rfl⟩

/-- A register form, a rotate of A and a return, none of which stores. -/
theorem witness_non_storing : (∃ t, exec .nop (start []) = .next t) ∧ (∃ t, exec .rolAcc (start []) = .next t) ∧
    (∃ t, exec (.ldaAbs 0x2002) (start []) = .next t) ∧ (∃ t, exec .rti (start []) = .next t) ∧
    Instr.rolAcc.operand = .acc ∧
    Mnemonic.rol ∉ ([.sta, .stx, .sty, .inc, .dec, .pha, .php, .jsr, .brk] : List Mnemonic) :=
  ⟨⟨_, rfl⟩, ⟨_, rfl⟩, ⟨_, rfl⟩, ⟨_, rfl⟩, rfl, by decide⟩

/-- Stores at both sides of the RAM window's end and of 0x4014 and 0x4020. -/
theorem witness_storing : (∃ t, exec (.staAbs 0x1FFF) (start []) = .next t) ∧
    (∃ t, exec (.staAbs 0x2000) (start []) = .next t) ∧ (∃ t, exec (.incAbs 0x4014) (start []) = .next t) ∧
    (∃ t, exec (.staAbs 0x4020) (start []) = .next t) ∧ (Instr.incAbs 0x4014).operand = .mem (.abs 0x4014) ∧
    Mnemonic.inc ∈ ([.sta, .stx, .sty, .inc, .dec, .asl, .lsr, .rol, .ror] : List Mnemonic) :=
  ⟨⟨_, rfl⟩, ⟨_, rfl⟩, ⟨_, rfl⟩, ⟨_, rfl⟩, rfl, by decide⟩

theorem witness_pushing : (∃ t, exec .pha (start []) = .next t) ∧ (∃ t, exec (.jsr 0x9000) (start []) = .next t) ∧
    (∃ t, exec .brk (start []) = .next t) ∧ Instr.pha.mnemonic = .pha ∧ (Instr.jsr 0x9000).mnemonic = .jsr ∧
    Instr.brk.mnemonic = .brk :=
  ⟨⟨_, rfl⟩, ⟨_, rfl⟩, ⟨_, rfl⟩, rfl, rfl, rfl⟩

/-- Addresses at the ends of the windows that the bus obligations name. -/
theorem witness_windows : (0x0000 : Word).toNat < 0x2000 ∧ (0x1FFF : Word).toNat < 0x2000 ∧
    (0x1FFF : Word).toNat % 2048 = (0x07FF : Word).toNat % 2048 ∧
    0x4000 ≤ (0x4000 : Word).toNat ∧ (0x4014 : Word).toNat ≤ 0x4014 ∧ 0x4018 ≤ (0x4018 : Word).toNat ∧
    (0x401F : Word).toNat < 0x4020 ∧ (0x4016 : Word) ≠ 0x4015 ∧ (0x4015 : Word) ≠ 0x4016 ∧
    0x2000 ≤ (0x2002 : Word).toNat ∧ (0x3FFA : Word).toNat < 0x4000 ∧ (0x3FFA : Word).toNat % 8 = 2 ∧
    ¬ (0x2000 ≤ (0x1FFF : Word).toNat) ∧ ¬ ((0x4000 : Word).toNat < 0x4000) := by
  decide +kernel

/-- The ends of the windows a write goes to. -/
theorem witness_write_windows : 0x2000 ≤ (0x2000 : Word).toNat ∧ (0x3FFF : Word).toNat < 0x4000 ∧
    (0x3FF8 : Word).toNat % 8 = 0 ∧ 0x4000 ≤ (0x4000 : Word).toNat ∧ (0x4013 : Word).toNat < 0x4014 ∧
    (0x4015 : Word).toNat = 0x4015 ∧ (0x4017 : Word).toNat = 0x4017 ∧ 0x4020 ≤ (0x4020 : Word).toNat ∧
    0x4020 ≤ (0xFFFF : Word).toNat := by decide +kernel

theorem witness_strobe : (start []).pad.strobe = false ∧ (busWrite 0x4016 1 (start [])).pad.strobe = true := by
  decide +kernel

theorem witness_controller : (0x01 : Byte).getLsbD 0 = true ∧ (0xFE : Byte).getLsbD 0 = false := by decide

/-- Both clauses, the first and the last RAM page. -/
theorem witness_dma : (0x00 : Byte).toNat < 0x20 ∧ (0x1F : Byte).toNat < 0x20 ∧
    (start []).params.oamDmaEnabled = true ∧
    ({ start [] with params := { Params.default with oamDmaEnabled := false } }).params.oamDmaEnabled = false := by
  decide +kernel

theorem witness_nrom : Mapper.blank.chip = .nrom ∧ Mapper.blank.prgBanks = 1 ∧ (0 : Nat) < 0x4000 ∧ (0x3FFF : Nat) < 0x4000 :=
  ⟨rfl, rfl, by decide, by decide⟩

/-- The fifth address at both ends of each register's range. -/
theorem witness_mmc1_writes : mmc1Cart.chip = .mmc1 (Mmc1.powerOn .horizontal) ∧
    (Mmc1.powerOn .horizontal).shift = 0x10 ∧ 0x8000 ≤ (0x8000 : Word).toNat ∧ (0x9FFF : Word).toNat < 0xA000 ∧
    ¬ (0xA000 : Word).toNat < 0xA000 ∧ (0xBFFF : Word).toNat < 0xC000 ∧ ¬ (0xC000 : Word).toNat < 0xC000 ∧
    (0xDFFF : Word).toNat < 0xE000 ∧ ¬ (0xE000 : Word).toNat < 0xE000 ∧ (0x7F : Byte).toNat < 128 ∧
    (0x7FFF : Word).toNat < 0x8000 ∧ 128 ≤ (0x80 : Byte).toNat := by
  decide +kernel

theorem witness_banked : (banked (.uxrom 5) 4).chip = .uxrom 5 ∧ (banked (.cnrom 5) 2).chip = .cnrom 5 ∧
    (banked (.cnrom 5) 2).chrBanks ≠ 0 ∧ mmc1Cart.chrBanks ≠ 0 ∧ (∀ calls, mmc1Cart.chip ≠ .mmc3 calls) ∧
    ({ mmc1Cart with chrBanks := 0 }).chrBanks = 0 ∧ Mapper.blank.chip = .nrom ∧
    mmc1Cart.chip = .mmc1 (Mmc1.powerOn .horizontal) :=
  ⟨rfl, rfl, by decide, by decide, fun _ h => Chip.noConfusion h, rfl, rfl, rfl⟩

/-- The three outcomes of a boundary. -/
theorem witness_boundary : (start []).AtBoundary ∧ ((start []).setNmiPending true).cpu.nmiPending = true ∧
    (startIrq ⟨false, false, false, false, false, false⟩ []).irqLine = true ∧
    (startIrq ⟨false, false, false, false, false, false⟩ []).cpu.p.i = false ∧
    (startIrq ⟨false, false, false, true, false, false⟩ []).cpu.p.i = true ∧
    (start []).irqLine = false ∧ (start []).cpu.nmiPending = false :=
  ⟨⟨rfl, rfl⟩, rfl, rfl, rfl, rfl, rfl, rfl⟩

/-- A PPU at a position, odd frame, vblank flag set. -/
def ppuAt (line dot : Nat) : State :=
  { start [] with
    ppu := ⟨0, true, false, line, dot, true, []⟩
    env := ⟨[⟨[], true⟩], [], 0⟩ }

/-- The range's corner, the shortened dot, and the positions where the vblank clauses begin and end. -/
theorem witness_ppu_positions : Ppu.InRange (ppuAt 261 340).ppu ∧ Ppu.InRange (ppuAt 261 339).ppu ∧
    (ppuAt 261 339).env.ppuTick.shorten = true ∧ (ppuAt 261 339).ppu.frameOdd = true ∧
    ((ppuStep (ppuAt 261 339)).ppu.scanline = 0 ∧ (ppuStep (ppuAt 261 339)).ppu.dot = 0) ∧
    ((ppuStep (ppuAt 261 338)).ppu.scanline = 261 ∧ (ppuStep (ppuAt 261 338)).ppu.dot = 339) ∧
    ((ppuStep (ppuAt 241 0)).ppu.scanline = 241 ∧ (ppuStep (ppuAt 241 0)).ppu.dot = 1) ∧
    ((ppuStep (ppuAt 240 340)).ppu.scanline = 241 ∧ (ppuStep (ppuAt 240 340)).ppu.dot = 0) ∧
    ((ppuStep (ppuAt 261 0)).ppu.scanline = 261 ∧ 1 ≤ (ppuStep (ppuAt 261 0)).ppu.dot) ∧
    ((ppuStep (ppuAt 260 340)).ppu.scanline = 261 ∧ (ppuStep (ppuAt 260 340)).ppu.dot < 1) := by
  unfold Ppu.InRange
  decide +kernel

theorem witness_dmc : ({ start [] with env := ⟨[], [⟨none, none, some 0xC000⟩], 0⟩ }).env.apu =
    [⟨none, none, some 0xC000⟩] ∧ (ApuTick.dmcFetch ⟨none, none, some 0xC000⟩) = some 0xC000 :=
  ⟨rfl, rfl⟩

/-- The reset state has the invariant. -/
theorem witness_reset_inv : State.reset.Inv := by
  refine ⟨⟨rfl, rfl⟩, ⟨Nat.le_refl _, rfl, rfl, rfl, rfl, rfl⟩, ⟨Nat.zero_le _, Nat.zero_le _⟩, ?_, ?_⟩
  · intro h; cases h
  · intro c h; cases h

/-- A step from it, a save and a restore after it. -/
theorem witness_reset_step : (∃ t, step State.reset = .next t) ∧ (∃ t, move .save State.reset = .next t) ∧
    (∃ t, move .restore State.reset = .next t) ∧ State.reset.slot = none :=
  ⟨⟨_, rfl⟩, ⟨_, rfl⟩, ⟨_, rfl⟩, rfl⟩

theorem witness_power_on : State.reset.IsPowerOn :=
  ⟨Params.default, ResetRegs.default, [], Mapper.blank, State.reset.ppu, State.reset.env,
    ⟨by decide, by decide, by decide, by decide⟩, ⟨rfl, rfl⟩, ⟨Nat.le_refl _, rfl, rfl, rfl, rfl, rfl⟩,
    ⟨Nat.zero_le _, Nat.zero_le _⟩, (fun h => Bool.noConfusion h), rfl, ⟨0, rfl⟩, rfl⟩

/-- A run of one step after a save. -/
theorem witness_save_run : ∃ t, Host.Core.run core 1 (save State.reset) = .next t := ⟨_, rfl⟩

/-- A header of the smallest image: one PRG bank, no CHR, mapper `n`. -/
def header (n prg : Byte) : List Byte := [0x4E, 0x45, 0x53, 0x1A, prg, 0, n <<< 4, n &&& 0xF0] ++ List.replicate 8 0

/-- One image for each clause; the truncated one is one byte short of the accepted one. -/
theorem witness_images : ([] : List Byte).take 4 ≠ [0x4E, 0x45, 0x53, 0x1A] ∧
    (header 0 1 ++ List.replicate 16383 0).length < 16 + 0x4000 ∧
    (header 5 1 ++ List.replicate 16384 0).length = 16 + 0x4000 ∧
    (header 0 0).length = 16 ∧ (header 0 0).take 4 = [0x4E, 0x45, 0x53, 0x1A] ∧
    (header 4 1 ++ List.replicate 16384 0).length = 16 + 0x4000 := by
  refine ⟨by decide, ?_, ?_, by decide, by decide, ?_⟩ <;> rw [List.length_append, List.length_replicate] <;> decide

/-- The smallest image of `n`, with its header's CHR count. -/
def smallest (n chr : Byte) (bytes : Nat) : List Byte := (header n 1).set 5 chr ++ List.replicate bytes 0

/-- A construction that succeeds, for a cartridge with CHR RAM and one with a bank of CHR ROM; at reset and in both of these
the chip is at power-on. -/
theorem witness_construct : ((∃ s, construct Params.default ResetRegs.default [] [] (smallest 0 0 16384) = .ok s) ∧
    ∃ s, construct Params.default ResetRegs.default [] [] (smallest 4 1 24576) = .ok s) ∧
    RamValid [] ∧ Memory.wf [] = true ∧ Memory.below 0x2000 [] = true ∧ Params.default.Valid ∧
    powerOnChip Mapper.blank.headerMirroring 0 = some Mapper.blank.chip := by
  have len : ∀ n chr bytes, (smallest n chr bytes).length = 16 + bytes := fun n chr bytes => by
    rw [smallest, List.length_append, List.length_replicate]; rfl
  refine ⟨⟨?_, ?_⟩, ⟨rfl, rfl⟩, rfl, rfl, ⟨by decide, by decide, by decide, by decide⟩, rfl⟩ <;>
    (unfold construct loadImage
     rw [if_neg (fun h => h rfl), if_neg (by rw [len]; decide)]
     exact ⟨_, rfl⟩)

theorem witness_calls : (∃ t, exec (.jsr 0x9000) (start []) = .next t) ∧ (∃ t, t = enterNmi (start [])) ∧
    ∃ t, t = enterIrq (start []) :=
  ⟨⟨_, rfl⟩, ⟨_, rfl⟩, ⟨_, rfl⟩⟩

end Sys2Proof.Tests
end

section
/-! The CPU step by its kinds: a stall step, a countdown step, and a boundary step that runs the instruction its bytes decode to
(10_state.md R31; 30_encoding.md R121; 60_exceptions.md R273, R274). -/

namespace Sys2Proof.Machine

/-! ### Stall and countdown -/

/-- R274: the stall comes before everything else. -/
theorem cpuStep_of_stall {s : State} (h : s.cpu.stallRemaining ≠ 0) : cpuStep s = .next s.countStall.toggleOdd := by
  rw [cpuStep, if_pos h]

/-- R31: the countdown comes before the polls and the fetch. -/
theorem cpuStep_of_countdown {s : State} (hs : s.cpu.stallRemaining = 0) (hc : s.cpu.cyclesRemaining ≠ 0) :
    cpuStep s = .next s.countCycle.toggleOdd := by
  rw [cpuStep, if_neg (not_not_intro hs), if_pos hc]

/-- Settles O8: the two branches of the CPU step before the boundary. -/
theorem stallAndCountdownStepsOnlyCount : Obligations.StallAndCountdownStepsOnlyCount :=
  fun _ => ⟨cpuStep_of_stall, cpuStep_of_countdown⟩

/-! ### The fetch as a reading of bytes -/

/-- Reading one byte more is one `fetchByte` first. -/
theorem readBytes_succ (n : Nat) (s : State) :
    readBytes (n + 1) s =
      ((fetchByte s).1 :: (readBytes n (fetchByte s).2).1, (readBytes n (fetchByte s).2).2) := by
  rw [fetchByte_eq, readBytes]

/-- A reading of no byte changes nothing. -/
theorem state_of_readBytes_nil {n : Nat} {s t : State} (h : readBytes n s = ([], t)) : t = s := by
  cases n with
  | zero => exact (Prod.mk.inj h).2.symm
  | succ n =>
    rw [readBytes_succ] at h
    cases (Prod.mk.inj h).1

/-- The first byte of a reading is `fetchByte`'s, and the others are a reading after it. -/
theorem readBytes_cons {n : Nat} {s t : State} {b : Byte} {bs : List Byte} (h : readBytes n s = (b :: bs, t)) :
    (fetchByte s).1 = b ∧ ∃ m, readBytes m (fetchByte s).2 = (bs, t) := by
  cases n with
  | zero => cases (Prod.mk.inj h).1
  | succ n =>
    rw [readBytes_succ] at h
    obtain ⟨hb, ht⟩ := Prod.mk.inj h
    obtain ⟨hb, hbs⟩ := List.cons.inj hb
    exact ⟨hb, n, Prod.ext hbs ht⟩

/-- The bytes of one whole instruction: an opcode with exactly the operand bytes it needs (R114, R116). -/
theorem decode_eq_ok_nil {bs : List Byte} {i : Instr} (h : decode bs = .ok (i, [])) :
    (∃ op, bs = [op] ∧ decodeOpcode op = some (.one i)) ∨
      (∃ op b f, bs = [op, b] ∧ decodeOpcode op = some (.byte f) ∧ i = f b) ∨
      ∃ op lo hi f, bs = [op, lo, hi] ∧ decodeOpcode op = some (.word f) ∧ i = f (mkWord hi lo) := by
  unfold decode at h
  split at h
  · cases h
  next op rest =>
    split at h
    · cases h
    next hop =>
      cases h
      exact .inl ⟨op, rfl, hop⟩
    next f hop =>
      split at h <;> cases h
      exact .inr (.inl ⟨op, _, f, rfl, hop, rfl⟩)
    next f hop =>
      split at h <;> cases h
      exact .inr (.inr ⟨op, _, _, f, rfl, hop, rfl⟩)

/-- The fetch is the reading of the bytes that decode to the instruction (R121). -/
theorem fetch_of_readBytes {n : Nat} {s t : State} {bs : List Byte} {i : Instr} (hr : readBytes n s = (bs, t))
    (hd : decode bs = .ok (i, [])) : fetch s = .instr i t := by
  rcases decode_eq_ok_nil hd with ⟨op, rfl, hop⟩ | ⟨op, b, f, rfl, hop, rfl⟩ | ⟨op, lo, hi, f, rfl, hop, rfl⟩
  · obtain ⟨h1, m, hr⟩ := readBytes_cons hr
    obtain rfl := state_of_readBytes_nil hr
    simp only [fetch, h1, hop]
  · obtain ⟨h1, m, hr⟩ := readBytes_cons hr
    obtain ⟨h2, m, hr⟩ := readBytes_cons hr
    obtain rfl := state_of_readBytes_nil hr
    simp only [fetch, h1, hop, h2]
  · obtain ⟨h1, m, hr⟩ := readBytes_cons hr
    obtain ⟨h2, m, hr⟩ := readBytes_cons hr
    obtain ⟨h3, m, hr⟩ := readBytes_cons hr
    obtain rfl := state_of_readBytes_nil hr
    simp only [fetch, h1, hop, h2, h3]

/-- A boundary step that takes no interrupt runs what it fetches (R266, R273). -/
theorem cpuStep_of_fetch {s t : State} {i : Instr} (hb : s.AtBoundary) (hn : s.NoInterrupt) (hf : fetch s = .instr i t) :
    cpuStep s = andThen State.toggleOdd (exec i t) := by
  rw [cpuStep_boundary hb, boundary_fetches hn, fetchExecute, hf]

/-- Settles O6: the fetch is the reading of the bytes, and the step is the boundary step followed by the device steps. -/
theorem stepRunsTheDecodedInstruction : Obligations.StepRunsTheDecodedInstruction := by
  intro s t bs i hb hn hr hd
  have hc := cpuStep_of_fetch hb hn (fetch_of_readBytes hr hd)
  exact ⟨hc, by rw [step, hc, andThen_andThen]⟩

end Sys2Proof.Machine
end

section
/-! The power-on state (10_state.md R37; 70_reset_and_hazards.md R322 to R328). -/

namespace Sys2Proof.Machine

/-- With the chip at power-on no source of the IRQ input is asserted (R264, R328). -/
theorem irqLine_powerOn (params : Params) (regs : ResetRegs) (ram : Memory) {cart : Mapper} {n : Nat}
    (h : powerOnChip cart.headerMirroring n = some cart.chip) : (State.powerOn params regs ram cart).irqLine = false := by
  show (cart.irqOut || false || false) = false
  rw [irqOut_powerOnChip h]
  rfl

/-- Settles O58: PC is the vector's word, the IRQ input is the mapper's, and the rest are the fields `State.powerOn` gives. -/
theorem powerOnState : Obligations.PowerOnState :=
  fun params regs ram _ =>
    ⟨mkWord_eq_wordOf _ _, rfl, rfl, rfl, rfl, rfl, rfl, rfl, rfl, rfl, rfl, rfl, rfl, rfl, rfl, rfl,
      fun _ => irqLine_powerOn params regs ram, rfl, rfl, rfl, rfl, rfl, rfl, rfl, rfl, rfl⟩

end Sys2Proof.Machine
end

section
/-! The instructions by class (40_addressing.md R144), and the read class through its operand: a proof about every instruction is one
case for each class. -/

namespace Sys2Proof.Machine

/-- The read class, the write class, the shifts, the read-modify-write class and the branches (R144). -/
def readMnemonics : List Mnemonic := [.lda, .ldx, .ldy, .adc, .sbc, .and, .ora, .eor, .bit, .cmp, .cpx, .cpy]
@[inherit_doc readMnemonics] def writeMnemonics : List Mnemonic := [.sta, .stx, .sty]
@[inherit_doc readMnemonics] def shiftMnemonics : List Mnemonic := [.asl, .lsr, .rol, .ror]
@[inherit_doc readMnemonics] def modifyMnemonics : List Mnemonic := .inc :: .dec :: shiftMnemonics
@[inherit_doc readMnemonics] def branchMnemonics : List Mnemonic := [.bcc, .bcs, .beq, .bmi, .bne, .bpl, .bvc, .bvs]

/-- The pushing instructions (10_state.md R24). -/
def pushMnemonics : List Mnemonic := [.pha, .php, .jsr, .brk]

/-- The mnemonics all of whose forms write memory. -/
def storingMnemonics : List Mnemonic := [.sta, .stx, .sty, .inc, .dec, .pha, .php, .jsr, .brk]

/-- The instructions that move values between registers, flags, stack and PC, and write no memory. -/
def registerMnemonics : List Mnemonic :=
  [.tax, .tay, .tsx, .txa, .txs, .tya, .pla, .plp, .inx, .iny, .dex, .dey, .jmp, .rts, .clc, .cld, .cli, .clv, .sec, .sed,
    .sei, .rti, .nop]

/-- Every mnemonic is in one of the six classes. -/
theorem mnemonic_class (k : Mnemonic) :
    k ∈ readMnemonics ∨ k ∈ writeMnemonics ∨ k ∈ modifyMnemonics ∨ k ∈ branchMnemonics ∨ k ∈ pushMnemonics ∨
      k ∈ registerMnemonics := by
  cases k <;> decide

/-- Every instruction of the read class (R144): one read of its operand, then its operation. -/
theorem exec_read_operand {i : Instr} (s : State) (hi : i.mnemonic ∈ readMnemonics) :
    ∃ v k t, OperandRead i.operand s v k t ∧
      exec i s = .next ((readOp i.mnemonic v t).setCycles (i.baseCycles + k)) := by
  rcases exec_read i s hi with ⟨v, ho, he⟩ | ⟨m, ho, he⟩
  · obtain ⟨v, k, t, hr, hq⟩ := readImm_eq i.baseCycles (readOp i.mnemonic) v s
    exact ⟨v, k, t, ho ▸ hr, hq ▸ he⟩
  · obtain ⟨v, k, t, hr, hq⟩ := readMem_eq i.baseCycles (readOp i.mnemonic) m s
    exact ⟨v, k, t, ho ▸ hr, hq ▸ he⟩

end Sys2Proof.Machine
end

section
/-! The frame of the instructions that write no memory (10_state.md R21 to R25; 20_memory.md R56): one relation between the state
before and the state after, with one lemma for each operation that keeps it; an instruction keeps it because it is a composition
of such operations. -/

namespace Sys2Proof.Machine

/-- The mnemonics that write A (R21), X (R22), Y (R23), SP (R24) and PC (R25) beyond the fetch, the pushes left out. -/
def aWriters : List Mnemonic := [.lda, .pla, .txa, .tya, .adc, .sbc, .and, .ora, .eor, .asl, .lsr, .rol, .ror]
@[inherit_doc aWriters] def xWriters : List Mnemonic := [.ldx, .tax, .tsx, .inx, .dex]
@[inherit_doc aWriters] def yWriters : List Mnemonic := [.ldy, .tay, .iny, .dey]
@[inherit_doc aWriters] def spWriters : List Mnemonic := [.txs, .pla, .plp, .rts, .rti]
@[inherit_doc aWriters] def pcWriters : List Mnemonic :=
  [.bcc, .bcs, .beq, .bmi, .bne, .bpl, .bvc, .bvs, .jmp, .rts, .rti]

/-- What a read on the bus leaves outside the CPU: RAM, the cartridge, the parameters, and the device state no read changes
(R56). -/
structure KeepsDevices (s t : State) : Prop where
  ram : t.ram = s.ram
  cart : t.cart = s.cart
  params : t.params = s.params
  slot : t.slot = s.slot
  envPpu : t.env.ppu = s.env.ppu
  envApu : t.env.apu = s.env.apu
  padByte : t.pad.byte = s.pad.byte
  strobe : t.pad.strobe = s.pad.strobe
  ctrl : t.ppu.ctrl = s.ppu.ctrl
  scanline : t.ppu.scanline = s.ppu.scanline
  dot : t.ppu.dot = s.ppu.dot
  dmcIrq : t.apu.dmcIrq = s.apu.dmcIrq

/-- What mnemonic `k` leaves of the CPU when it writes no memory: the interrupt and stall state, and the registers that are not
its own. The flags, the latch and the countdown are left out. -/
structure KeepsRegisters (k : Mnemonic) (c d : Cpu) : Prop where
  nmiPending : d.nmiPending = c.nmiPending
  nmiLinePrev : d.nmiLinePrev = c.nmiLinePrev
  stall : d.stallRemaining = c.stallRemaining
  odd : d.oddCycle = c.oddCycle
  a : k ∉ aWriters → d.a = c.a
  x : k ∉ xWriters → d.x = c.x
  y : k ∉ yWriters → d.y = c.y
  sp : k ∉ spWriters → d.sp = c.sp
  pc : k ∉ pcWriters → d.pc = c.pc

/-- The frame of an instruction of mnemonic `k` that writes no memory. -/
structure KeepsMemory (k : Mnemonic) (s t : State) : Prop extends KeepsDevices s t, KeepsRegisters k s.cpu t.cpu

/-- The latches and the DMC interrupt after a read (R56, R73, R292). -/
theorem busRead_latches (a : Word) (s : State) :
    (busRead a s).2.pad.byte = s.pad.byte ∧ (busRead a s).2.pad.strobe = s.pad.strobe ∧
      (busRead a s).2.apu.dmcIrq = s.apu.dmcIrq := by
  simp only [busRead, targetRead]
  cases target a
  case pad =>
    simp only [State.setOpenBus_pad, State.setPad_pad, Pad.afterRead]
    split <;> exact ⟨rfl, rfl, rfl⟩
  all_goals exact ⟨rfl, rfl, rfl⟩

namespace KeepsMemory

variable {k : Mnemonic} {s t : State}

theorem refl (k : Mnemonic) (s : State) : KeepsMemory k s s :=
  ⟨by constructor <;> rfl, by constructor <;> intros <;> rfl⟩

theorem setP (h : KeepsMemory k s t) (p : Flags) : KeepsMemory k s (t.setP p) := { h with }

theorem setCycles (h : KeepsMemory k s t) (n : Nat) : KeepsMemory k s (t.setCycles n) := { h with }

theorem setOpenBus (h : KeepsMemory k s t) (v : Byte) : KeepsMemory k s (t.setOpenBus v) := { h with }

theorem setA (h : KeepsMemory k s t) (v : Byte) (hk : k ∈ aWriters) : KeepsMemory k s (t.setA v) :=
  { h with a := (absurd hk ·) }

theorem setX (h : KeepsMemory k s t) (v : Byte) (hk : k ∈ xWriters) : KeepsMemory k s (t.setX v) :=
  { h with x := (absurd hk ·) }

theorem setY (h : KeepsMemory k s t) (v : Byte) (hk : k ∈ yWriters) : KeepsMemory k s (t.setY v) :=
  { h with y := (absurd hk ·) }

theorem setSp (h : KeepsMemory k s t) (v : Byte) (hk : k ∈ spWriters) : KeepsMemory k s (t.setSp v) :=
  { h with sp := (absurd hk ·) }

theorem setPc (h : KeepsMemory k s t) (w : Word) (hk : k ∈ pcWriters) : KeepsMemory k s (t.setPc w) :=
  { h with pc := (absurd hk ·) }

/-! Reads. -/

theorem busRead (h : KeepsMemory k s t) (a : Word) : KeepsMemory k s (busRead a t).2 where
  toKeepsDevices := by
    obtain ⟨byte, strobe, dmc⟩ := busRead_latches a t
    obtain ⟨line, dot, ctrl, -⟩ := busRead_ppu_position a t
    exact
      { ram := (busRead_ram a t).trans h.ram
        cart := (busRead_cart a t).trans h.cart
        params := (busRead_params a t).trans h.params
        slot := (busRead_slot a t).trans h.slot
        envPpu := (busRead_env_ppu a t).trans h.envPpu
        envApu := (busRead_env_apu a t).trans h.envApu
        padByte := byte.trans h.padByte
        strobe := strobe.trans h.strobe
        ctrl := ctrl.trans h.ctrl
        scanline := line.trans h.scanline
        dot := dot.trans h.dot
        dmcIrq := dmc.trans h.dmcIrq }
  toKeepsRegisters := by
    rw [busRead_cpu]
    exact { h.toKeepsRegisters with }

theorem operandRead {o : Operand} {v : Byte} {n : Nat} {u : State} (h : KeepsMemory k s t) (hr : OperandRead o t v n u) :
    KeepsMemory k s u := by
  cases o <;> simp only [OperandRead] at hr
  case imm =>
    obtain ⟨-, -, rfl⟩ := hr
    exact h
  case mem m =>
    obtain rfl : u = (Machine.busRead _ _).2 := congrArg Prod.snd hr.1
    rw [effective_state]
    exact (h.setOpenBus _).busRead _

theorem pull (h : KeepsMemory k s t) (hk : k ∈ spWriters) : KeepsMemory k s (pull t).2 :=
  (h.setSp _ hk).busRead _

theorem pull16 (h : KeepsMemory k s t) (hk : k ∈ spWriters) : KeepsMemory k s (pull16 t).2 :=
  (h.pull hk).pull hk

theorem indirectTarget (h : KeepsMemory k s t) (w : Word) : KeepsMemory k s (indirectTarget w t).2 :=
  (h.busRead _).busRead _

theorem returnFromInterrupt (h : KeepsMemory k s t) (hsp : k ∈ spWriters) (hpc : k ∈ pcWriters) :
    KeepsMemory k s (returnFromInterrupt t) :=
  (((h.pull hsp).setP _).pull16 hsp).setPc _ hpc

/-! The operations of the instruction classes. -/

theorem loadA (h : KeepsMemory k s t) (v : Byte) (hk : k ∈ aWriters) : KeepsMemory k s (loadA v t) := (h.setA v hk).setP _

theorem loadX (h : KeepsMemory k s t) (v : Byte) (hk : k ∈ xWriters) : KeepsMemory k s (loadX v t) := (h.setX v hk).setP _

theorem loadY (h : KeepsMemory k s t) (v : Byte) (hk : k ∈ yWriters) : KeepsMemory k s (loadY v t) := (h.setY v hk).setP _

/-- Each operation of the read class writes the flags, and of the registers only its mnemonic's. -/
theorem readOp (h : KeepsMemory k s t) (v : Byte) : KeepsMemory k s (readOp k v t) := by
  cases k
  case lda | and | ora | eor => exact h.loadA _ (by decide)
  case adc | sbc => exact (h.setA _ (by decide)).setP _
  case ldx => exact h.loadX v (by decide)
  case ldy => exact h.loadY v (by decide)
  case bit | cmp | cpx | cpy => exact h.setP _
  all_goals exact h

theorem modifyAcc (h : KeepsMemory k s t) (n : Nat) (f : Flags → Byte → Byte × Flags) (hk : k ∈ aWriters) :
    KeepsMemory k s (modifyAcc n f t) :=
  ((h.setA _ hk).setP _).setCycles n

theorem branch (h : KeepsMemory k s t) (cond : Bool) (d : Byte) (hk : k ∈ pcWriters) :
    KeepsMemory k s (branch cond d t) := by
  unfold Machine.branch
  split
  · exact (h.setPc _ hk).setCycles _
  · exact h.setCycles _

end KeepsMemory

/-- The register instructions, each as the composition of operations its meaning is. -/
theorem exec_register_keepsMemory {i : Instr} {s t : State} (he : exec i s = .next t) (hi : i.mnemonic ∈ registerMnemonics) :
    KeepsMemory i.mnemonic s t := by
  have h := KeepsMemory.refl i.mnemonic s
  cases i
  case tax | tsx | inx | dex => cases he; exact (h.loadX _ (by decide)).setCycles _
  case tay | iny | dey => cases he; exact (h.loadY _ (by decide)).setCycles _
  case txa | tya => cases he; exact (h.loadA _ (by decide)).setCycles _
  case txs => cases he; exact (h.setSp _ (by decide)).setCycles _
  case pla => cases he; exact ((h.pull (by decide)).loadA _ (by decide)).setCycles _
  case plp => cases he; exact ((h.pull (by decide)).setP _).setCycles _
  case jmpAbs => cases he; exact (h.setPc _ (of_decide_eq_true rfl)).setCycles _
  case jmpInd w => cases he; exact ((h.indirectTarget w).setPc _ (of_decide_eq_true rfl)).setCycles _
  case rts => cases he; exact ((h.pull16 (by decide)).setPc _ (by decide)).setCycles _
  case rti => cases he; exact (h.returnFromInterrupt (by decide) (by decide)).setCycles _
  case clc | cld | cli | clv | sec | sed | sei => cases he; exact (h.setP _).setCycles _
  case nop => cases he; exact h.setCycles _
  all_goals exact absurd hi (of_decide_eq_false rfl)

/-- The stores, the pushes and the memory forms of the read-modify-write class are left out; every other instruction keeps the
memory. -/
theorem exec_keepsMemory {i : Instr} {s t : State} (he : exec i s = .next t)
    (hw : i.mnemonic ∉ writeMnemonics) (hp : i.mnemonic ∉ pushMnemonics)
    (hm : i.mnemonic ∈ modifyMnemonics → i.operand = .acc ∧ i.mnemonic ∈ aWriters) : KeepsMemory i.mnemonic s t := by
  have h := KeepsMemory.refl i.mnemonic s
  rcases mnemonic_class i.mnemonic with hc | hc | hc | hc | hc | hc
  · obtain ⟨v, k, u, hr, hu⟩ := exec_read_operand s hc
    cases hu.symm.trans he
    exact ((h.operandRead hr).readOp v).setCycles _
  · exact absurd hc hw
  · obtain ⟨hacc, ha⟩ := hm hc
    rcases exec_modify i s hc with ⟨-, hu⟩ | ⟨m, hmem, -⟩
    · cases hu.symm.trans he
      exact h.modifyAcc _ _ ha
    · cases hacc.symm.trans hmem
  · obtain ⟨d, -, hu⟩ := exec_branch i s hc
    cases hu.symm.trans he
    exact h.branch _ d ((by decide : branchMnemonics ⊆ pcWriters) hc)
  · exact absurd hc hp
  · exact exec_register_keepsMemory he hc

/-- Settles O30: the hypotheses leave out the writing classes, and the others keep the memory. -/
theorem nonStoringInstructionsLeaveMemory : Obligations.NonStoringInstructionsLeaveMemory := by
  intro i s t he hns hshift
  have hw : i.mnemonic ∉ writeMnemonics := fun h => hns ((by decide : writeMnemonics ⊆ storingMnemonics) h)
  have hp : i.mnemonic ∉ pushMnemonics := fun h => hns ((by decide : pushMnemonics ⊆ storingMnemonics) h)
  have hm : i.mnemonic ∈ modifyMnemonics → i.operand = .acc ∧ i.mnemonic ∈ aWriters := fun h => by
    rcases (by decide : ∀ k ∈ modifyMnemonics, k ∈ storingMnemonics ∨ k ∈ shiftMnemonics) _ h with h | h
    · exact absurd h hns
    · exact ⟨not_not.mp fun ho => hshift ⟨h, ho⟩, (by decide : shiftMnemonics ⊆ aWriters) h⟩
  have k := exec_keepsMemory he hw hp hm
  exact ⟨fun a => by rw [State.ramAt, k.ram]; rfl, k.cart, k.params, k.slot, k.envPpu, k.envApu, k.padByte, k.strobe,
    k.ctrl, k.scanline, k.dot, k.dmcIrq, k.nmiPending, k.nmiLinePrev, k.stall, k.odd, k.a, k.x, k.y, k.sp, k.pc⟩

end Sys2Proof.Machine
end

section
/-! The writers of each flag (10_state.md R28): the frame of each flag computation of the instruction set, then of each class. -/

namespace Sys2Proof.Machine

/-- The writers of C, of Z and N, of V, of I and of D (R28). -/
def cWriters : List Mnemonic := [.adc, .sbc, .cmp, .cpx, .cpy, .asl, .lsr, .rol, .ror, .clc, .sec, .plp, .rti]
@[inherit_doc cWriters] def znWriters : List Mnemonic :=
  [.lda, .ldx, .ldy, .tax, .tay, .tsx, .txa, .tya, .pla, .adc, .sbc, .and, .ora, .eor, .bit, .cmp, .cpx, .cpy, .inc, .inx,
    .iny, .dec, .dex, .dey, .asl, .lsr, .rol, .ror, .plp, .rti]
@[inherit_doc cWriters] def vWriters : List Mnemonic := [.adc, .sbc, .bit, .clv, .plp, .rti]
@[inherit_doc cWriters] def iWriters : List Mnemonic := [.sei, .cli, .plp, .rti, .brk]
@[inherit_doc cWriters] def dWriters : List Mnemonic := [.sed, .cld, .plp, .rti]

/-- Mnemonic `k` leaves the flags it is not listed as a writer of. -/
structure KeepsFlags (k : Mnemonic) (p q : Flags) : Prop where
  c : k ∉ cWriters → q.c = p.c
  zn : k ∉ znWriters → q.z = p.z ∧ q.n = p.n
  v : k ∉ vWriters → q.v = p.v
  i : k ∉ iWriters → q.i = p.i
  d : k ∉ dWriters → q.d = p.d

namespace KeepsFlags

variable {k : Mnemonic} {p : Flags}

theorem refl (k : Mnemonic) (p : Flags) : KeepsFlags k p p :=
  ⟨fun _ => rfl, fun _ => ⟨rfl, rfl⟩, fun _ => rfl, fun _ => rfl, fun _ => rfl⟩

theorem of_eq {q : Flags} (h : q = p) : KeepsFlags k p q := h ▸ refl k p

/-! A change of one flag by one of its writers. -/

theorem setC (h : k ∈ cWriters) (b : Bool) : KeepsFlags k p { p with c := b } := { refl k p with c := (absurd h ·) }

theorem setV (h : k ∈ vWriters) (b : Bool) : KeepsFlags k p { p with v := b } := { refl k p with v := (absurd h ·) }

theorem setI (h : k ∈ iWriters) (b : Bool) : KeepsFlags k p { p with i := b } := { refl k p with i := (absurd h ·) }

theorem setD (h : k ∈ dWriters) (b : Bool) : KeepsFlags k p { p with d := b } := { refl k p with d := (absurd h ·) }

theorem trans {q r : Flags} (h : KeepsFlags k p q) (h' : KeepsFlags k q r) : KeepsFlags k p r where
  c hk := (h'.c hk).trans (h.c hk)
  zn hk := ⟨(h'.zn hk).1.trans (h.zn hk).1, (h'.zn hk).2.trans (h.zn hk).2⟩
  v hk := (h'.v hk).trans (h.v hk)
  i hk := (h'.i hk).trans (h.i hk)
  d hk := (h'.d hk).trans (h.d hk)

/-- A writer of every flag keeps none. -/
theorem of_writer_of_all {q : Flags} (h : k = .plp ∨ k = .rti) : KeepsFlags k p q := by
  rcases h with rfl | rfl <;> constructor <;> exact (absurd (by decide) ·)

/-! The flag computations. -/

theorem nz (h : k ∈ znWriters) (p : Flags) (r : Byte) : KeepsFlags k p (p.nz r) := { refl k p with zn := (absurd h ·) }

theorem adc (hc : k ∈ cWriters) (hzn : k ∈ znWriters) (hv : k ∈ vWriters) (p : Flags) (a m : Byte) :
    KeepsFlags k p (p.adc a m).2 :=
  { refl k p with c := (absurd hc ·), zn := (absurd hzn ·), v := (absurd hv ·) }

theorem compare (hc : k ∈ cWriters) (hzn : k ∈ znWriters) (p : Flags) (r m : Byte) : KeepsFlags k p (p.compare r m) :=
  { refl k p with c := (absurd hc ·), zn := (absurd hzn ·) }

theorem bit (hzn : k ∈ znWriters) (hv : k ∈ vWriters) (p : Flags) (a m : Byte) : KeepsFlags k p (p.bit a m) :=
  { refl k p with zn := (absurd hzn ·), v := (absurd hv ·) }

/-- The flags after the operation of each read-class mnemonic. -/
theorem readOp (k : Mnemonic) (v : Byte) (s : State) : KeepsFlags k s.cpu.p (readOp k v s).cpu.p := by
  cases k
  case lda | ldx | ldy | and | ora | eor => exact nz (by decide) _ _
  case adc | sbc => exact adc (by decide) (by decide) (by decide) _ _ _
  case bit => exact bit (by decide) (by decide) _ _ _
  case cmp | cpx | cpy => exact compare (by decide) (by decide) _ _ _
  all_goals exact refl _ _

/-- The flags after the operation of each read-modify-write mnemonic: the shifts write C, and all of them Z and N. -/
theorem modifyOp (hk : k ∈ modifyMnemonics) (p : Flags) (v : Byte) : KeepsFlags k p (modifyOp k p v).2 := by
  cases k
  case inc | dec => exact nz (by decide) _ _
  case asl | lsr | rol | ror => exact (setC (by decide) _).trans (nz (by decide) _ _)
  all_goals exact absurd hk (by decide)

end KeepsFlags

/-! ### The flags the operations over the state leave -/

theorem busWrite_p (a : Word) (v : Byte) (s : State) : (busWrite a v s).cpu.p = s.cpu.p := by
  rw [(busWrite_frame a v s).1]

theorem writeMem_p (n : Nat) (v : Byte) (m : Mem) (s : State) : (writeMem n v m s).cpu.p = s.cpu.p := by
  simp only [writeMem, State.setCycles_cpu, busWrite_p]
  rw [effective_cpu]

theorem branch_p (cond : Bool) (d : Byte) (s : State) : (branch cond d s).cpu.p = s.cpu.p := by
  unfold branch
  split <;> rfl

theorem push_p (v : Byte) (s : State) : (push v s).cpu.p = s.cpu.p := by rw [push_eq]

theorem push16_p (w : Word) (s : State) : (push16 w s).cpu.p = s.cpu.p := by rw [push16_eq]

theorem pull_p (s : State) : (pull s).2.cpu.p = s.cpu.p := by rw [pull_eq]

theorem pull16_p (s : State) : (pull16 s).2.cpu.p = s.cpu.p := by rw [pull16_eq]

theorem indirectTarget_p (w : Word) (s : State) : (indirectTarget w s).2.cpu.p = s.cpu.p := by
  simp only [indirectTarget, busRead_cpu]

/-- The trap through the IRQ vector sets I and writes no other flag (R247). -/
theorem enterIrqVector_p (ret : Word) (b : Bool) (s : State) :
    (enterInterrupt irqVector ret b s).cpu.p = { s.cpu.p with i := true } := by
  obtain ⟨_, _, _, _, h⟩ := enterInterrupt_frame (vector := irqVector) (by decide) (by decide) ret b s
  rw [h]

/-! ### The flags each class writes -/

theorem exec_push_keepsFlags {i : Instr} {s t : State} (he : exec i s = .next t) (hi : i.mnemonic ∈ pushMnemonics) :
    KeepsFlags i.mnemonic s.cpu.p t.cpu.p := by
  cases i
  case pha | php => cases he; exact .of_eq (push_p _ s)
  case jsr => cases he; exact .of_eq (push16_p _ s)
  case brk => cases he; rw [enterIrqVector_p]; exact .setI (by decide) true
  all_goals exact absurd hi (of_decide_eq_false rfl)

theorem exec_register_keepsFlags {i : Instr} {s t : State} (he : exec i s = .next t) (hi : i.mnemonic ∈ registerMnemonics) :
    KeepsFlags i.mnemonic s.cpu.p t.cpu.p := by
  cases i
  case tax | tay | tsx | txa | tya | inx | iny | dex | dey => cases he; exact .nz (by decide) _ _
  case pla => cases he; exact (KeepsFlags.of_eq (pull_p s)).trans (.nz (by decide) _ _)
  case plp => exact .of_writer_of_all (.inl rfl)
  case rti => exact .of_writer_of_all (.inr rfl)
  case clc | sec => cases he; exact .setC (by decide) _
  case cld | sed => cases he; exact .setD (by decide) _
  case cli | sei => cases he; exact .setI (by decide) _
  case clv => cases he; exact .setV (by decide) _
  case jmpInd w => cases he; exact .of_eq (indirectTarget_p w s)
  case rts => cases he; exact .of_eq (pull16_p s)
  case txs | jmpAbs | nop => cases he; exact .refl _ _
  all_goals exact absurd hi (of_decide_eq_false rfl)

theorem exec_modify_keepsFlags {i : Instr} {s t : State} (he : exec i s = .next t) (hi : i.mnemonic ∈ modifyMnemonics) :
    KeepsFlags i.mnemonic s.cpu.p t.cpu.p := by
  rcases exec_modify i s hi with ⟨-, hu⟩ | ⟨m, -, hu⟩ <;> cases hu.symm.trans he
  · exact .modifyOp hi _ _
  · exact (KeepsFlags.of_eq (busRead_effective_p m s)).trans (.modifyOp hi _ _)

/-- Settles O33: by the class of the instruction. -/
theorem flagsHaveTheirWriters : Obligations.FlagsHaveTheirWriters := by
  intro i s t he
  have k : KeepsFlags i.mnemonic s.cpu.p t.cpu.p := by
    rcases mnemonic_class i.mnemonic with hc | hc | hc | hc | hc | hc
    · obtain ⟨v, n, u, hr, hu⟩ := exec_read_operand s hc
      obtain ⟨-, -, -, -, -, hp⟩ := operandRead_registers hr
      cases hu.symm.trans he
      exact (KeepsFlags.of_eq hp).trans (.readOp _ v u)
    · obtain ⟨m, -, hu⟩ := exec_write i s hc
      cases hu.symm.trans he
      exact .of_eq (writeMem_p _ _ m s)
    · exact exec_modify_keepsFlags he hc
    · obtain ⟨d, -, hu⟩ := exec_branch i s hc
      cases hu.symm.trans he
      exact .of_eq (branch_p _ d s)
    · exact exec_push_keepsFlags he hc
    · exact exec_register_keepsFlags he hc
  exact ⟨k.c, k.zn, k.v, k.i, k.d⟩

end Sys2Proof.Machine
end

section
/-! The pushing instructions (10_state.md R24; 20_memory.md R58): each push writes one byte of page 1, so n pushes write n. -/

namespace Sys2Proof.Machine

/-- What `n` pushes leave: RAM outside the `n` bytes from the stack pointer down, wrapping in page 1, and all but SP, PC, the
flags, the latch and the countdown. -/
structure PushesBytes (n : Nat) (s t : State) : Prop where
  ram : ∀ a : Word, (∀ k : Nat, k < n → a.toNat % 2048 ≠ stackIndex (s.cpu.sp - BitVec.ofNat 8 k)) → t.ramAt a = s.ramAt a
  sp : t.cpu.sp = s.cpu.sp - BitVec.ofNat 8 n
  a : t.cpu.a = s.cpu.a
  x : t.cpu.x = s.cpu.x
  y : t.cpu.y = s.cpu.y
  cart : t.cart = s.cart
  pad : t.pad = s.pad
  ppu : t.ppu = s.ppu
  apu : t.apu = s.apu
  params : t.params = s.params
  slot : t.slot = s.slot
  env : t.env = s.env
  nmiPending : t.cpu.nmiPending = s.cpu.nmiPending
  nmiLinePrev : t.cpu.nmiLinePrev = s.cpu.nmiLinePrev
  stall : t.cpu.stallRemaining = s.cpu.stallRemaining
  odd : t.cpu.oddCycle = s.cpu.oddCycle

namespace PushesBytes

variable {n : Nat} {s t : State}

theorem refl (s : State) : PushesBytes 0 s s := by
  constructor
  case sp => exact (BitVec.sub_zero _).symm
  all_goals intros; rfl

/-- A push after `n` pushes is the `n + 1`st: SP is `n` lower there. -/
theorem push (h : PushesBytes n s t) (v : Byte) : PushesBytes (n + 1) s (push v t) := by
  rw [push_eq]
  refine { h with ram := fun a ha => ?_, sp := ?_ }
  · have hne : a.toNat % 2048 ≠ stackIndex t.cpu.sp := by
      rw [h.sp]
      exact ha n n.lt_succ_self
    exact (Memory.read_write_other hne _ v).trans (h.ram a fun k hk => ha k (Nat.lt_succ_of_lt hk))
  · show t.cpu.sp - 1 = _
    rw [h.sp, BitVec.ofNat_add, sub_sub]
    rfl

theorem push16 (h : PushesBytes n s t) (w : Word) : PushesBytes (n + 2) s (push16 w t) := (h.push _).push _

theorem setP (h : PushesBytes n s t) (p : Flags) : PushesBytes n s (t.setP p) := { h with }

theorem setPc (h : PushesBytes n s t) (w : Word) : PushesBytes n s (t.setPc w) := { h with }

theorem setCycles (h : PushesBytes n s t) (c : Nat) : PushesBytes n s (t.setCycles c) := { h with }

/-- A vector's byte is read from the cartridge: the read leaves the latch and nothing else. -/
theorem busRead_of_cart (h : PushesBytes n s t) {a : Word} (ha : 0x4020 ≤ a.toNat) : PushesBytes n s (busRead a t).2 := by
  rw [Machine.busRead_of_cart ha]
  exact { h with }

theorem enterIrqVector (h : PushesBytes n s t) (ret : Word) (b : Bool) :
    PushesBytes (n + 3) s (enterInterrupt irqVector ret b t) :=
  ((((((h.push16 ret).push _).setP _).busRead_of_cart (by decide)).busRead_of_cart (by decide)).setPc _).setCycles _

end PushesBytes

/-- The bytes a pushing instruction pushes. -/
def pushCount : Mnemonic → Nat
  | .pha | .php => 1
  | .jsr => 2
  | .brk => 3
  | _ => 0

theorem exec_pushesBytes {i : Instr} {s t : State} (he : exec i s = .next t) (hi : i.mnemonic ∈ pushMnemonics) :
    PushesBytes (pushCount i.mnemonic) s t := by
  have h := PushesBytes.refl s
  cases i
  case pha | php => cases he; exact (h.push _).setCycles _
  case jsr w => cases he; exact ((h.push16 _).setPc w).setCycles _
  case brk => cases he; exact h.enterIrqVector _ true
  all_goals exact absurd hi (of_decide_eq_false rfl)

/-- Settles O32: PHA and PHP push once, JSR twice, and BRK three times before it reads its vector. -/
theorem pushingInstructionsChangeTheirStackBytes : Obligations.PushingInstructionsChangeTheirStackBytes := by
  intro i s t n he hi
  obtain ⟨hc, rfl⟩ : i.mnemonic ∈ pushMnemonics ∧ n = pushCount i.mnemonic := by
    rcases hi with ⟨h | h, rfl⟩ | ⟨h, rfl⟩ | ⟨h, rfl⟩ <;> rw [h] <;> exact ⟨by decide, rfl⟩
  have h := exec_pushesBytes he hc
  exact ⟨h.ram, h.sp, h.a, h.x, h.y, h.cart, h.pad, h.ppu, h.apu, h.params, h.slot, h.env, h.nmiPending, h.nmiLinePrev,
    h.stall, h.odd⟩

end Sys2Proof.Machine
end

section
/-! What a whole step keeps (60_exceptions.md R275): the CPU step does only what `Keeps` allows, whatever it fetches or takes,
so a property that `Keeps` and one PPU step preserve holds after the step. -/

namespace Sys2Proof.Machine

/-! ### The CPU step -/

theorem Keeps.branch (cond : Bool) (d : Byte) (s : State) : Keeps s (branch cond d s) := by
  unfold Machine.branch
  split <;> exact (Keeps.refl s).cpu _

theorem Keeps.indirectTarget (w : Word) (s : State) : Keeps s (indirectTarget w s).2 :=
  (Keeps.busRead _ _).trans (Keeps.busRead _ _)

theorem Keeps.exec_push {i : Instr} {s t : State} (he : exec i s = .next t) (hi : i.mnemonic ∈ pushMnemonics) :
    Keeps s t := by
  cases i
  case pha | php => cases he; exact (Keeps.push _ s).cpu _
  case jsr => cases he; exact ((Keeps.push16 _ s).cpu _).cpu _
  case brk => cases he; exact Keeps.enterInterrupt _ _ _ s
  all_goals exact absurd hi (of_decide_eq_false rfl)

theorem Keeps.exec_register {i : Instr} {s t : State} (he : exec i s = .next t) (hi : i.mnemonic ∈ registerMnemonics) :
    Keeps s t := by
  cases i
  case tax | tay | tsx | txa | txs | tya | inx | iny | dex | dey | jmpAbs | clc | cld | cli | clv | sec | sed | sei | nop =>
    cases he; exact (Keeps.refl s).cpu _
  case pla | plp => cases he; exact (Keeps.pull s).cpu _
  case jmpInd w => cases he; exact (Keeps.indirectTarget w s).cpu _
  case rts => cases he; exact (Keeps.pull16 s).cpu _
  case rti => cases he; exact (Keeps.returnFromInterrupt s).cpu _
  all_goals exact absurd hi (of_decide_eq_false rfl)

/-- Every instruction, by its class. -/
theorem Keeps.exec {i : Instr} {s t : State} (he : exec i s = .next t) : Keeps s t := by
  rcases mnemonic_class i.mnemonic with hc | hc | hc | hc | hc | hc
  · rcases exec_read i s hc with ⟨v, -, hu⟩ | ⟨m, -, hu⟩ <;> cases hu.symm.trans he
    · exact (Keeps.readOp _ v s).cpu _
    · exact Keeps.readMem _ (Keeps.readOp _) m s
  · obtain ⟨m, -, hu⟩ := exec_write i s hc
    cases hu.symm.trans he
    exact Keeps.writeMem _ _ m s
  · rcases exec_modify i s hc with ⟨-, hu⟩ | ⟨m, -, hu⟩ <;> cases hu.symm.trans he
    · exact (Keeps.refl s).cpu _
    · exact Keeps.modifyMem _ _ m s
  · obtain ⟨d, -, hu⟩ := exec_branch i s hc
    cases hu.symm.trans he
    exact Keeps.branch _ d s
  · exact Keeps.exec_push he hc
  · exact Keeps.exec_register he hc

/-- An undocumented opcode has no next state, so what a fetch runs is an instruction. -/
theorem Keeps.fetchExecute {s t : State} (h : fetchExecute s = .next t) : Keeps s t := by
  unfold Machine.fetchExecute at h
  split at h
  next i u hf => exact (Keeps.fetch hf).trans (Keeps.exec h)
  next op _ =>
    unfold refuseOpcode at h
    split at h <;> cases h

theorem Keeps.boundary {s t : State} (h : boundary s = .next t) : Keeps s t := by
  unfold Machine.boundary at h
  split at h
  · cases h; exact ((Keeps.refl s).cpu _).trans (Keeps.enterInterrupt _ _ _ _)
  split at h
  · cases h; exact Keeps.enterInterrupt _ _ _ s
  · exact Keeps.fetchExecute h

/-- The three kinds of CPU step (R273): the first two only count. -/
theorem Keeps.cpuStep {s t : State} (h : cpuStep s = .next t) : Keeps s t := by
  unfold Machine.cpuStep at h
  split at h
  · cases h; exact (Keeps.refl s).cpu _
  split at h
  · cases h; exact (Keeps.refl s).cpu _
  cases hb : Machine.boundary s with
  | next u => rw [hb] at h; cases h; exact (Keeps.boundary hb).cpu _
  | fault e => rw [hb] at h; cases h
  | refused e => rw [hb] at h; cases h

/-! ### The step -/

/-- Only the three PPU steps do more than `Keeps` allows: the samples, the APU step and the CPU step do not (R275). -/
theorem step_induction {P : State → Prop} (hk : ∀ s t, Keeps s t → P s → P t) (hp : ∀ s, P s → P (ppuStep s))
    {s t : State} (h : step s = .next t) (hs : P s) : P t := by
  obtain ⟨u, hc, rfl⟩ := step_eq_next h
  have sample : ∀ s, P s → P (ppuStepSample s) := fun s h => hk _ _ (Keeps.nmiSample _ _) (hp s h)
  exact hk _ _ (Keeps.apuStep _) (sample _ (sample _ (sample _ (hk _ _ (Keeps.cpuStep hc) hs))))

/-! ### The board (20_memory.md R57, R65, R76, R100) -/

theorem State.sameBoard_iff (s t : State) :
    s.SameBoard t ↔ t.params = s.params ∧ t.slot = s.slot ∧ s.cart.SameRom t.cart := Iff.rfl

theorem State.SameBoard.refl (s : State) : s.SameBoard s := ⟨rfl, rfl, Mapper.SameRom.refl _⟩

theorem State.SameBoard.trans {s t u : State} (h : s.SameBoard t) (h' : t.SameBoard u) : s.SameBoard u := by
  obtain ⟨params, slot, rom⟩ := (s.sameBoard_iff t).mp h
  obtain ⟨params', slot', rom'⟩ := (t.sameBoard_iff u).mp h'
  exact ⟨params'.trans params, slot'.trans slot, rom.trans rom'⟩

theorem Keeps.sameBoard {s t : State} (h : Keeps s t) : s.SameBoard t := ⟨h.params, h.slot, h.rom⟩

theorem State.sameBoard_ppuStep (s : State) : s.SameBoard (ppuStep s) := ⟨rfl, rfl, Mapper.sameRom_onCart _ _⟩

/-- Settles O55: every part of a step keeps the board. -/
theorem stepNeverChangesTheRom : Obligations.StepNeverChangesTheRom := fun s _ h =>
  step_induction (P := s.SameBoard) (fun _ _ hk hs => hs.trans hk.sameBoard) (fun t hs => hs.trans t.sameBoard_ppuStep) h
    (State.SameBoard.refl s)

end Sys2Proof.Machine
end

section
/-! The invariant of every run (60_exceptions.md R276, R280, R289): `Keeps` preserves it, and so do a PPU step and the host's
moves. -/

namespace Sys2Proof.Machine

/-! ### The PPU step -/

/-- From a position in range a PPU step moves one dot along the line, or to the start of the next one, the last line's next being
line 0 (R280). -/
theorem Ppu.advance_position {p : Ppu} (h : p.InRange) (clearDot : Nat) (shorten : Bool) :
    let q := p.advance clearDot shorten
    (p.dot < 340 ∧ q.scanline = p.scanline ∧ q.dot = p.dot + 1) ∨
      (q.dot = 0 ∧ (p.scanline < 261 ∧ q.scanline = p.scanline + 1 ∨ p.scanline = 261 ∧ q.scanline = 0)) := by
  obtain ⟨hline, hdot⟩ := h
  simp only [Ppu.advance]
  cases he : p.lineEnds shorten
  · have hlt : ¬ 340 ≤ p.dot := fun hd => by simp [Ppu.lineEnds, hd] at he
    exact .inl ⟨Nat.not_le.mp hlt, rfl, rfl⟩
  · refine .inr ⟨rfl, ?_⟩
    simp only [if_true]
    split <;> omega

theorem Ppu.inRange_advance {p : Ppu} (h : p.InRange) (clearDot : Nat) (shorten : Bool) :
    (p.advance clearDot shorten).InRange := by
  have hpos := p.advance_position h clearDot shorten
  unfold Ppu.InRange at *
  omega

/-- The flag is set at a position only where it may be set there, or was set before (R289). -/
theorem vblankAt_eq_true {clearDot line dot : Nat} {old : Bool} (h : vblankAt clearDot line dot old = true) :
    line = 241 ∧ dot = 1 ∨ old = true ∧ 241 ≤ line ∧ (line = 261 → dot < clearDot) := by
  unfold vblankAt at h
  split at h
  next hset => exact .inl hset
  split at h
  · cases h
  next hclear => exact .inr ⟨h, by omega, by omega⟩

theorem Ppu.advance_vblank (p : Ppu) (clearDot : Nat) (shorten : Bool) :
    (p.advance clearDot shorten).vblank =
      vblankAt clearDot (p.advance clearDot shorten).scanline (p.advance clearDot shorten).dot p.vblank := rfl

/-- A flag set before the step stays in its window: line 241 is entered from line 240, where the flag is clear. -/
theorem Ppu.vblankInWindow_advance {p : Ppu} (h : p.InRange) {clearDot : Nat} (hv : p.VblankInWindow clearDot) (shorten : Bool) :
    (p.advance clearDot shorten).VblankInWindow clearDot := by
  intro hq
  have hpos := p.advance_position h clearDot shorten
  obtain ⟨hline, hdot⟩ := p.inRange_advance h clearDot shorten
  rw [Ppu.advance_vblank] at hq
  rcases vblankAt_eq_true hq with hset | ⟨hold, hlo, hhi⟩
  · exact .inl ⟨hset.1, Nat.le_of_eq hset.2.symm⟩
  · have hwindow := hv hold
    omega

theorem State.Inv.ppuStep {s : State} (h : s.Inv) : (ppuStep s).Inv := by
  obtain ⟨ram, cart, range, window, slot⟩ := h
  exact ⟨ram, Mapper.valid_onCart cart _, Ppu.inRange_advance range _ _, Ppu.vblankInWindow_advance range window _, slot⟩

/-! ### Everything but the PPU step -/

theorem Keeps.inv {s t : State} (k : Keeps s t) (h : s.Inv) : t.Inv := by
  obtain ⟨ram, cart, range, window, slot⟩ := h
  refine ⟨k.ram ram, k.cart cart, ?_, ?_, ?_⟩
  · rwa [Ppu.InRange, k.scanline, k.dot]
  · rw [Ppu.VblankInWindow, k.params, k.scanline, k.dot]
    exact fun hv => window (k.vblank hv)
  · rwa [k.slot, k.params]

theorem State.Inv.step {s t : State} (hs : s.Inv) (h : step s = .next t) : t.Inv :=
  step_induction (fun _ _ => Keeps.inv) (fun _ => State.Inv.ppuStep) h hs

/-! ### The moves of the host -/

/-- What a valid cartridge copies out is 8 KiB of CHR RAM, or nothing (R100). -/
theorem Mapper.Valid.copyOut {m : Mapper} (h : m.Valid) :
    m.copyOut.chrRam.wf = true ∧ m.copyOut.chrRam.below 0x2000 = true ∧ chipOk m.copyOut.chip = true := by
  obtain ⟨-, -, -, hwf, hbelow, hchip⟩ := h
  unfold Mapper.copyOut
  split
  next hram =>
    rw [Mapper.chrSize, if_pos hram] at hbelow
    exact ⟨hwf, hbelow, hchip⟩
  · exact ⟨rfl, rfl, hchip⟩

/-- A copy of a chip and of 8 KiB of CHR RAM fits any valid cartridge (R100). -/
theorem Mapper.Valid.copyIn {m : Mapper} (h : m.Valid) {c : MapperCopy} (hwf : c.chrRam.wf = true)
    (hbelow : c.chrRam.below 0x2000 = true) (hchip : chipOk c.chip = true) : (m.copyIn c).Valid := by
  obtain ⟨hprg, hrom, hsize, hchr, hchrSize, -⟩ := h
  refine ⟨hprg, hrom, hsize, ?_, ?_, hchip⟩
  · unfold Mapper.copyIn
    split <;> assumption
  · show (m.copyIn c).chr.below m.chrSize = true
    unfold Mapper.copyIn
    split
    next hram => rwa [Mapper.chrSize, if_pos hram]
    · exact hchrSize

theorem State.Inv.snapshot {s : State} (h : s.Inv) : s.snapshot.Valid s.params.vblankClearDot := by
  obtain ⟨ram, cart, range, window, -⟩ := h
  exact ⟨ram, range, window, cart.copyOut⟩

theorem State.Inv.save {s : State} (h : s.Inv) : (save s).Inv := by
  have hsnap := h.snapshot
  obtain ⟨ram, cart, range, window, -⟩ := h
  exact ⟨ram, cart, range, window, fun c hc => Option.some.inj hc ▸ hsnap⟩

theorem State.Inv.resume {s : State} (h : s.Inv) {c : Snapshot} (hc : c.Valid s.params.vblankClearDot) : (s.resume c).Inv := by
  obtain ⟨-, cart, -, -, slot⟩ := h
  obtain ⟨ram, range, window, hwf, hbelow, hchip⟩ := hc
  exact ⟨ram, cart.copyIn hwf hbelow hchip, range, window, slot⟩

theorem State.Inv.saved {s : State} (h : s.Inv) {c : Snapshot} (hc : s.slot = some c) : c.Valid s.params.vblankClearDot := by
  obtain ⟨-, -, -, -, slot⟩ := h
  exact slot c hc

theorem State.Inv.restore {s : State} (h : s.Inv) : (restore s).1.Inv := by
  unfold Machine.restore
  split
  next c hc => exact h.resume (h.saved hc)
  · exact h

theorem State.Inv.move {k : Move} {s t : State} (hs : s.Inv) (h : move k s = .next t) : t.Inv := by
  cases k with
  | frameUnit => exact hs.step h
  | supplyController b => cases h; exact hs
  | save => cases h; exact hs.save
  | restore => cases h; exact hs.restore

/-- Settles O53: a step is built from what `Keeps` allows and PPU steps; a host's move changes the latches, the slot, or the whole
System to a saved one. -/
theorem stepKeepsTheInvariant : Obligations.StepKeepsTheInvariant := fun _ _ hs => ⟨hs.step, fun _ => hs.move⟩

end Sys2Proof.Machine
end

section
/-! The decoder by its single targets (20_memory.md R52), and through it the latch, the reads and the writes on the bus (R54 to
R57). -/

namespace Sys2Proof.Machine

/-! ### The targets of one address, or of a range -/

/-- The decoder with its bounds in numbers. -/
theorem target_eq_ite (a : Word) :
    target a =
      if a.toNat < 0x2000 then .ram (a.toNat % 2048)
      else if a.toNat < 0x4000 then .ppu (a.extractLsb' 0 3)
      else if a.toNat < 0x4014 then .apuChannel
      else if a.toNat = 0x4014 then .oamDma
      else if a.toNat = 0x4015 then .apuStatus
      else if a.toNat = 0x4016 then .pad
      else if a.toNat = 0x4017 then .pad2
      else if a.toNat < 0x4020 then .nothing
      else .cart := by
  rw [target, ramIndex]
  simp [BitVec.lt_def, ← BitVec.toNat_inj]

theorem target_eq_oamDma {a : Word} (h : target a = .oamDma) : a.toNat = 0x4014 := by grind [target_eq_ite]

theorem target_eq_apuStatus {a : Word} (h : target a = .apuStatus) : a.toNat = 0x4015 := by grind [target_eq_ite]

theorem target_eq_pad {a : Word} (h : target a = .pad) : a.toNat = 0x4016 := by grind [target_eq_ite]

theorem target_eq_ppu {a : Word} {port : BitVec 3} (h : target a = .ppu port) : 0x2000 ≤ a.toNat ∧ a.toNat < 0x4000 := by
  grind [target_eq_ite]

theorem target_eq_cart {a : Word} (h : target a = .cart) : 0x4020 ≤ a.toNat := by
  grind [target_eq_ite]

theorem target_nothing {a : Word} (h : 0x4018 ≤ a.toNat) (h' : a.toNat < 0x4020) : target a = .nothing := by
  grind [target_eq_ite]

/-! ### Internal RAM -/

/-- Settles O36: a read and a write of the window are at the index modulo 2048, so a read after a write is a read of the cell
written or of another one. -/
theorem ramIsMirrored : Obligations.RamIsMirrored := by
  intro a v s ha
  refine ⟨busRead_of_ram ha s, busWrite_of_ram ha v s, fun b hb => ?_⟩
  rw [busWrite_of_ram ha, busRead_of_ram hb, busRead_of_ram hb]
  show (s.ram.write (a.toNat % 2048) v).read (b.toNat % 2048) = _
  split
  next hab => rw [hab, Memory.read_write_same]
  next hab => rw [Memory.read_write_other hab]

/-! ### The latch -/

/-- Any write but the start of a sprite DMA changes of the CPU only the latch, which takes the byte (R54). -/
theorem busWrite_cpu {a : Word} (h : a.toNat ≠ 0x4014) (v : Byte) (s : State) :
    (busWrite a v s).cpu = { s.cpu with openBus := v } := by
  rw [busWrite, targetWrite]
  cases ht : target a
  case oamDma => exact absurd (target_eq_oamDma ht) h
  all_goals rfl

/-- Where no device drives the bus a read returns the latch, and leaves it (R52). -/
theorem busRead_undriven {a : Word} (h : 0x4000 ≤ a.toNat ∧ a.toNat ≤ 0x4014 ∨ 0x4018 ≤ a.toNat ∧ a.toNat < 0x4020)
    (s : State) : busRead a s = (s.cpu.openBus, s) := by
  have ht : target a = .apuChannel ∨ target a = .oamDma ∨ target a = .nothing := by grind [target_eq_ite]
  rcases ht with ht | ht | ht <;> simp only [busRead, targetRead, ht] <;> rfl

theorem busWrite_nothing {a : Word} (h : 0x4018 ≤ a.toNat) (h' : a.toNat < 0x4020) (v : Byte) (s : State) :
    busWrite a v s = s.setOpenBus v := by
  simp only [busWrite, targetWrite, target_nothing h h']

/-- Settles O37: the write of 0x4014 aside, every access leaves its byte on the latch, and an undriven one nothing else. -/
theorem latchHoldsTheLastByte : Obligations.LatchHoldsTheLastByte := fun a v s =>
  ⟨by rw [busRead_cpu], fun ha => by rw [busWrite_cpu (fun h => ha (BitVec.eq_of_toNat_eq h))],
    fun h => busRead_undriven h s, fun h => busWrite_nothing h.1 h.2 v s⟩

/-! ### Reads and writes by device -/

/-- Each device block is changed by a read at its own addresses only (R56). -/
theorem busRead_ppu_of_ne {a : Word} (h : ¬ (0x2000 ≤ a.toNat ∧ a.toNat < 0x4000)) (s : State) :
    (busRead a s).2.ppu = s.ppu := by
  rw [busRead_ppu]
  split
  next ht => exact absurd (target_eq_ppu ht) h
  · rfl

@[inherit_doc busRead_ppu_of_ne]
theorem busRead_apu_of_ne {a : Word} (h : a.toNat ≠ 0x4015) (s : State) : (busRead a s).2.apu = s.apu := by
  rw [busRead, targetRead]
  cases ht : target a
  case apuStatus => exact absurd (target_eq_apuStatus ht) h
  all_goals rfl

@[inherit_doc busRead_ppu_of_ne]
theorem busRead_pad_of_ne {a : Word} (h : a.toNat ≠ 0x4016) (s : State) : (busRead a s).2.pad = s.pad := by
  rw [busRead, targetRead]
  cases ht : target a
  case pad => exact absurd (target_eq_pad ht) h
  all_goals rfl

/-- The port an address selects, in numbers (R286). -/
theorem ppuPort_eq (a : Word) : a.extractLsb' 0 3 = BitVec.ofNat 3 (a.toNat % 8) := by
  apply BitVec.eq_of_toNat_eq
  simp

theorem ppuPort_eq_iff (n k : Nat) (hk : k < 8) : BitVec.ofNat 3 (n % 8) = BitVec.ofNat 3 k ↔ n % 8 = k := by
  rw [← BitVec.toNat_inj, BitVec.toNat_ofNat, BitVec.toNat_ofNat]
  omega

/-- A write to a PPU port in numbers: PPUCTRL at port 0 (R287), the write toggle at ports 5 and 6 (R286, log 14). -/
theorem Ppu.afterWrite_eq (p : Ppu) (n : Nat) (v : Byte) :
    p.afterWrite (BitVec.ofNat 3 (n % 8)) v = { p with
      ctrl := if n % 8 = 0 then v else p.ctrl
      toggle := if n % 8 = 5 ∨ n % 8 = 6 then !p.toggle else p.toggle
      calls := .write (BitVec.ofNat 3 (n % 8)) v :: p.calls } := by
  have h0 := ppuPort_eq_iff n 0 (by decide)
  have h5 := ppuPort_eq_iff n 5 (by decide)
  have h6 := ppuPort_eq_iff n 6 (by decide)
  simp only [Ppu.afterWrite, ← h0, ← h5, ← h6]
  rfl

/-- A write to an APU register in numbers: the inhibit bit of 0x4017 clears the frame interrupt (R292, log 17). -/
theorem Apu.afterWrite_eq (u : Apu) (a : Word) (v : Byte) :
    u.afterWrite a v = { u with
      frameIrq := if a.toNat = 0x4017 ∧ 64 ≤ v.toNat % 128 then false else u.frameIrq
      calls := .write a v :: u.calls } := by
  have ha : a = 0x4017 ↔ a.toNat = 0x4017 := BitVec.toNat_inj.symm
  simp only [Apu.afterWrite, ha, bit6_eq, decide_eq_true_eq]

/-- Settles O38: the read side by the targets, the write side by the window. -/
theorem readsHaveOnlyTheListedEffects : Obligations.ReadsHaveOnlyTheListedEffects := by
  intro a s
  have ne {w : Word} (h : a ≠ w) : a.toNat ≠ w.toNat := fun e => h (BitVec.eq_of_toNat_eq e)
  refine ⟨busRead_cpu a s, busRead_ram a s, busRead_cart a s, busRead_params a s, busRead_slot a s, busRead_env_ppu a s,
    busRead_env_apu a s, fun h => busRead_ppu_of_ne h s, fun h => busRead_apu_of_ne (ne h) s, fun h => busRead_pad_of_ne (ne h) s,
    fun v => ⟨fun h h' => ?_, fun h => ?_, fun h => busWrite_of_cart h v s⟩⟩
  · rw [busWrite_of_ppu h h', ppuPort_eq, Ppu.afterWrite_eq]
    refine ⟨rfl, fun h0 => ?_⟩
    simp only [State.setPpu_ppu, Ppu.nmiOut, if_pos h0, bit7_eq]
  · rw [busWrite_of_apu h, Apu.afterWrite_eq]
    rfl

end Sys2Proof.Machine
end

section
/-! The controller port (20_memory.md R71 to R74, D15). -/

namespace Sys2Proof.Machine

/-- The byte of a controller port in numbers: three bits of the latch, the data in bit 0. -/
theorem toNat_portByte (openBus : Byte) (bit : Bool) : (portByte openBus bit).toNat = openBus.toNat / 32 * 32 + bitNat bit := by
  revert openBus bit
  decide

theorem bitNat_getLsbD_zero (v : Byte) : bitNat (v.getLsbD 0) = v.toNat % 2 := by revert v; decide

/-- A shift right that fills with 1, in numbers. -/
theorem shiftRight_fill (v : Byte) : (v >>> 1) ||| 0x80 = BitVec.ofNat 8 (128 + v.toNat / 2) := by revert v; decide

theorem getLsbD_shiftRight_fill (v : Byte) {j : Nat} (hj : j < 8) :
    ((v >>> 1) ||| 0x80).getLsbD j = if j = 7 then true else v.getLsbD (j + 1) := by
  revert v j
  decide

theorem Pad.afterWrite_eq (k : Pad) (v : Byte) :
    k.afterWrite v =
      { k with strobe := decide (v.toNat % 2 = 1), shift := if v.toNat % 2 = 1 then k.byte else k.shift } := by
  simp only [Pad.afterWrite, bit0_eq, decide_eq_true_eq]

theorem busWrite_padPort (v : Byte) (s : State) : busWrite 0x4016 v s = (s.setOpenBus v).setPad (s.pad.afterWrite v) := rfl

theorem busRead_padPort_byte (s : State) : (busRead 0x4016 s).1 = portByte s.cpu.openBus s.pad.bit := rfl

theorem busRead_padPort_pad (s : State) : (busRead 0x4016 s).2.pad = s.pad.afterRead := rfl

theorem busRead_pad2Port (s : State) :
    busRead 0x4017 s =
      (portByte s.cpu.openBus s.params.controller2, s.setOpenBus (portByte s.cpu.openBus s.params.controller2)) := rfl

/-! ### Reads with the strobe at 0 -/

/-- The latches after any number of reads are those after as many shifts. -/
theorem iterate_busRead_padPort_pad (n : Nat) (s : State) :
    ((fun u => (busRead 0x4016 u).2)^[n] s).pad = Pad.afterRead^[n] s.pad :=
  Function.Semiconj.iterate_right (f := State.pad) busRead_padPort_pad n s

/-- After `n` reads bit `j` of the register is bit `n + j` of what it was, and 1 from bit 8 on. -/
theorem Pad.iterate_afterRead {k : Pad} (h : k.strobe = false) (n : Nat) :
    (Pad.afterRead^[n] k).strobe = false ∧ ∀ j < 8,
      (Pad.afterRead^[n] k).shift.getLsbD j = if n + j < 8 then k.shift.getLsbD (n + j) else true := by
  induction n with
  | zero => exact ⟨h, fun j hj => by rw [if_pos (by omega), Nat.zero_add]; rfl⟩
  | succ n ih =>
    obtain ⟨hstrobe, hshift⟩ := ih
    rw [Function.iterate_succ_apply', Pad.afterRead, hstrobe]
    refine ⟨rfl, fun j hj => ?_⟩
    show (((Pad.afterRead^[n] k).shift >>> 1) ||| 0x80).getLsbD j = _
    rw [getLsbD_shiftRight_fill _ hj]
    split
    next h7 => rw [if_neg (by omega)]
    next h7 =>
      rw [hshift (j + 1) (by omega)]
      simp only [Nat.add_assoc, Nat.add_comm 1]

/-- The bit of the `n + 1`st read. -/
theorem Pad.bit_iterate_afterRead {k : Pad} (h : k.strobe = false) (n : Nat) :
    (Pad.afterRead^[n] k).bit = if n < 8 then k.shift.getLsbD n else true := by
  obtain ⟨hstrobe, hshift⟩ := Pad.iterate_afterRead h n
  rw [Pad.bit, hstrobe]
  exact hshift 0 (by decide)

/-- A strobe loads the controller byte, and the strobe at 0 keeps it (R71). -/
theorem Pad.afterWrite_strobe (k : Pad) {v w : Byte} (hv : v.getLsbD 0 = true) (hw : w.getLsbD 0 = false) :
    (k.afterWrite v).afterWrite w = ⟨k.byte, k.byte, false⟩ := by
  simp only [Pad.afterWrite, hv, hw, if_true, Bool.false_eq_true, if_false]

/-- Settles O40: one access by its equation, the eight reads by the register after n shifts. -/
theorem controllerShiftsOutItsByte : Obligations.ControllerShiftsOutItsByte := by
  intro s v w
  refine ⟨?_, rfl, fun h => ?_, fun h => ?_, ?_, ?_, fun hv hw n => ?_⟩
  · rw [busWrite_padPort, Pad.afterWrite_eq]
    rfl
  · rw [busRead_padPort_byte, busRead_padPort_pad, toNat_portByte, Pad.bit, if_pos h, bitNat_getLsbD_zero, Pad.afterRead, if_pos h]
    exact ⟨rfl, rfl⟩
  · have hf : ¬ s.pad.strobe = true := by rw [h]; decide
    rw [busRead_padPort_byte, busRead_padPort_pad, toNat_portByte, Pad.bit, if_neg hf, bitNat_getLsbD_zero, Pad.afterRead,
      if_neg hf, shiftRight_fill]
    exact ⟨rfl, rfl⟩
  · rw [busRead_pad2Port, toNat_portByte]
  · rw [busRead_pad2Port]
    rfl
  · rw [busRead_padPort_byte, toNat_portByte, iterate_busRead_padPort_pad, busWrite_padPort, busWrite_padPort]
    show _ + bitNat (Pad.afterRead^[n] ((s.pad.afterWrite v).afterWrite w)).bit = _
    rw [s.pad.afterWrite_strobe hv hw, Pad.bit_iterate_afterRead rfl]
    split <;> rfl

end Sys2Proof.Machine
end

section
/-! The frame of the stores and of the read-modify-writes on memory (20_memory.md R57; 40_addressing.md R144): reads and one
write at the effective address. -/

namespace Sys2Proof.Machine

/-- What reads and writes at one address `ea` leave: RAM but the byte `ea` names, the cartridge outside its window and always
its ROM and CHR, and of the CPU all but the flags, the latch, the countdown and the stall of a sprite DMA. -/
structure StoresAt (ea : Word) (s t : State) : Prop where
  ram : ∀ a : Word, ¬ (ea.toNat < 0x2000 ∧ a.toNat % 2048 = ea.toNat % 2048) → t.ramAt a = s.ramAt a
  cart : ea.toNat < 0x4020 → t.cart = s.cart
  prgRom : t.cart.prgRom = s.cart.prgRom
  chr : t.cart.chr = s.cart.chr
  params : t.params = s.params
  slot : t.slot = s.slot
  cpu : t.cpu = { s.cpu with
    p := t.cpu.p, openBus := t.cpu.openBus, cyclesRemaining := t.cpu.cyclesRemaining, stallRemaining := t.cpu.stallRemaining }
  stall : ea ≠ 0x4014 → t.cpu.stallRemaining = s.cpu.stallRemaining

/-- RAM after a write: no byte but the one the address names. -/
theorem busWrite_ramAt {ea a : Word} (h : ¬ (ea.toNat < 0x2000 ∧ a.toNat % 2048 = ea.toNat % 2048)) (v : Byte) (s : State) :
    (busWrite ea v s).ramAt a = s.ramAt a := by
  rw [State.ramAt, State.ramAt, busWrite_ram]
  split
  next hw => exact Memory.read_write_other (fun e => h ⟨hw, e⟩) _ v
  · rfl

/-- A write below the cartridge's window leaves the cartridge. -/
theorem busWrite_cart_of_lt {ea : Word} (h : ea.toNat < 0x4020) (v : Byte) (s : State) : (busWrite ea v s).cart = s.cart := by
  rw [busWrite_cart, if_neg fun ht => absurd (target_eq_cart ht) (Nat.not_le.mpr h)]

/-- No write changes PRG ROM or CHR (R57, R65). -/
theorem busWrite_cart_memories (a : Word) (v : Byte) (s : State) :
    (busWrite a v s).cart.prgRom = s.cart.prgRom ∧ (busWrite a v s).cart.chr = s.cart.chr := by
  rw [busWrite_cart]
  split
  · obtain ⟨-, -, -, hprg, hchr⟩ := s.cart.cpuWrite_frame a v
    exact ⟨hprg, hchr⟩
  · exact ⟨rfl, rfl⟩

namespace StoresAt

variable {ea : Word} {s t : State}

theorem refl (ea : Word) (s : State) : StoresAt ea s s := by constructor <;> intros <;> rfl

theorem setP (h : StoresAt ea s t) (p : Flags) : StoresAt ea s (t.setP p) :=
  { h with cpu := by rw [State.setP_cpu, h.cpu] }

theorem setCycles (h : StoresAt ea s t) (n : Nat) : StoresAt ea s (t.setCycles n) :=
  { h with cpu := by rw [State.setCycles_cpu, h.cpu] }

theorem effective (h : StoresAt ea s t) (m : Mem) : StoresAt ea s (effective m t).state := by
  rw [effective_state]
  exact { h with cpu := by rw [State.setOpenBus_cpu, h.cpu] }

theorem busRead (h : StoresAt ea s t) (a : Word) : StoresAt ea s (busRead a t).2 := by
  have hcpu := busRead_cpu a t
  have hcart := busRead_cart a t
  exact
    { ram := fun b hb => by rw [State.ramAt, busRead_ram]; exact h.ram b hb
      cart := fun hea => hcart.trans (h.cart hea)
      prgRom := (congrArg Mapper.prgRom hcart).trans h.prgRom
      chr := (congrArg Mapper.chr hcart).trans h.chr
      params := (busRead_params a t).trans h.params
      slot := (busRead_slot a t).trans h.slot
      cpu := by rw [hcpu, h.cpu]
      stall := fun hea => (congrArg Cpu.stallRemaining hcpu).trans (h.stall hea) }

/-- The write at the effective address. -/
theorem busWrite (h : StoresAt ea s t) (v : Byte) : StoresAt ea s (busWrite ea v t) := by
  obtain ⟨hcpu, hparams, hslot, -⟩ := busWrite_frame ea v t
  obtain ⟨hprg, hchr⟩ := busWrite_cart_memories ea v t
  exact
    { ram := fun b hb => (busWrite_ramAt hb v t).trans (h.ram b hb)
      cart := fun hea => (busWrite_cart_of_lt hea v t).trans (h.cart hea)
      prgRom := hprg.trans h.prgRom
      chr := hchr.trans h.chr
      params := hparams.trans h.params
      slot := hslot.trans h.slot
      cpu := by rw [hcpu, h.cpu]
      stall := fun hea => by
        rw [busWrite_cpu fun e => hea (BitVec.eq_of_toNat_eq e)]
        exact h.stall hea }

theorem writeMem (m : Mem) (n : Nat) (v : Byte) (s : State) : StoresAt (Machine.effective m s).addr s (writeMem n v m s) :=
  (((refl _ s).effective m).busWrite v).setCycles n

theorem modifyMem (m : Mem) (n : Nat) (f : Flags → Byte → Byte × Flags) (s : State) :
    StoresAt (Machine.effective m s).addr s (modifyMem n f m s) :=
  (((((refl _ s).effective m).busRead _).busWrite _).setP _).setCycles n

end StoresAt

/-- The write class and the memory forms of the read-modify-write class are those that store. -/
theorem exec_storesAt {i : Instr} {s t : State} {m : Mem} (he : exec i s = .next t) (ho : i.operand = .mem m)
    (hi : i.mnemonic ∈ writeMnemonics ∨ i.mnemonic ∈ modifyMnemonics) : StoresAt (effective m s).addr s t := by
  rcases hi with hi | hi
  · obtain ⟨m', ho', hu⟩ := exec_write i s hi
    cases ho.symm.trans ho'
    cases hu.symm.trans he
    exact .writeMem m _ _ s
  · rcases exec_modify i s hi with ⟨ho', -⟩ | ⟨m', ho', hu⟩
    · cases ho.symm.trans ho'
    · cases ho.symm.trans ho'
      cases hu.symm.trans he
      exact .modifyMem m _ _ s

/-- Settles O31: by the two storing classes. -/
theorem storingInstructionsChangeOneByte : Obligations.StoringInstructionsChangeOneByte := by
  intro i s t m he ho hi
  have h := exec_storesAt he ho (List.mem_append.mp (show i.mnemonic ∈ writeMnemonics ++ modifyMnemonics from hi))
  refine ⟨h.ram, h.cart, h.prgRom, h.chr, h.params, h.slot, ?_, ?_, ?_, ?_, ?_, ?_, ?_, ?_, h.stall⟩ <;> rw [h.cpu]

end Sys2Proof.Machine
end

section
/-! The CPU side of the mappers (20_memory.md R78, R79, R84 to R92, R97, R98): a read through the translation, and the MMC1's serial
register. -/

namespace Sys2Proof.Machine

/-! ### Reads through the translation -/

/-- A chip with a known translation reads the latch below 0x8000 and PRG ROM at its offset above. -/
theorem Mapper.cpuRead_eq_ite {m : Mapper} {a : Word} (hm : ∀ calls, m.chip ≠ .mmc3 calls) {k : Nat}
    (h : ¬ a.toNat < 0x8000 → m.prgOffset a = some k) (ob : Byte) :
    m.cpuRead a ob = if a.toNat < 0x8000 then ob else m.prgRom.read k := by
  split
  next hlow => exact Mapper.cpuRead_low hm hlow ob
  next hhigh => exact Mapper.cpuRead_of_offset (h hhigh) ob

/-- NROM and CNROM show PRG ROM unbanked, mirrored to fill the window (R78, R98). -/
theorem Mapper.cpuRead_unbanked {m : Mapper} {b : Byte} (h : m.chip = .nrom ∨ m.chip = .cnrom b) (a : Word) (ob : Byte) :
    m.cpuRead a ob = if a.toNat < 0x8000 then ob else m.prgRom.read ((a.toNat - 0x8000) % m.prgSize) := by
  refine Mapper.cpuRead_eq_ite ?_ (fun ha => ?_) ob
  · rcases h with h | h <;> simp [h]
  · rcases h with h | h <;> rw [Mapper.prgOffset_high ha, h]

theorem Mapper.cpuRead_uxrom {m : Mapper} {b : Byte} (h : m.chip = .uxrom b) (a : Word) (ob : Byte) :
    m.cpuRead a ob =
      if a.toNat < 0x8000 then ob
      else m.prgRom.read (if a.toNat < 0xC000 then (b.toNat * 0x4000 + (a.toNat - 0x8000)) % m.prgSize
        else m.prgSize - 0x4000 + (a.toNat - 0xC000)) :=
  Mapper.cpuRead_eq_ite (by simp [h]) (fun ha => by rw [Mapper.prgOffset_high ha, h]) ob

theorem Mapper.cpuRead_mmc1 {m : Mapper} {r : Mmc1} (h : m.chip = .mmc1 r) (a : Word) (ob : Byte) :
    m.cpuRead a ob = if a.toNat < 0x8000 then ob else m.prgRom.read (r.prgOffset m.prgSize a.toNat) :=
  Mapper.cpuRead_eq_ite (by simp [h]) (fun ha => by rw [Mapper.prgOffset_high ha, h]) ob

/-- Settles O42: with one bank, both halves of the window have the same offset modulo 16 KiB. -/
theorem nromReadsAndIgnoresWrites : Obligations.NromReadsAndIgnoresWrites := by
  intro m a ob v h
  have read := Mapper.cpuRead_unbanked (b := 0) (.inl h)
  refine ⟨read a ob, by rw [Mapper.cpuWrite, h], fun h1 k hk => ?_⟩
  have low : (BitVec.ofNat 16 (0x8000 + k)).toNat = 0x8000 + k := Nat.mod_eq_of_lt (by omega)
  have high : (BitVec.ofNat 16 (0xC000 + k)).toNat = 0xC000 + k := Nat.mod_eq_of_lt (by omega)
  rw [read, read, low, high, Mapper.prgSize, h1, if_neg (by omega), if_neg (by omega)]
  exact congrArg m.prgRom.read (by omega)

/-! ### MMC1 -/

/-- The bank register with its bit 0 masked off, in numbers (R90). -/
theorem toNat_prgBank_mask (b : BitVec 4) : (b &&& 0x0E).toNat = b.toNat / 2 * 2 := by revert b; decide

/-- Settles O45: the four values of the mode. -/
theorem mmc1PrgTranslation : Obligations.Mmc1PrgTranslation := by
  intro m r a ob h
  have mode : r.prgMode = 0 ∨ r.prgMode = 1 ∨ r.prgMode = 2 ∨ r.prgMode = 3 := by
    generalize r.prgMode = mode
    revert mode
    decide
  show m.cpuRead a ob = _
  rw [Mapper.cpuRead_mmc1 h, Mmc1.prgOffset, toNat_prgBank_mask]
  rcases mode with hm | hm | hm | hm <;> simp [hm, Mapper.prgSize]

/-- A write at or above 0x8000 reaches the MMC1's registers, a lower one does not (R84). -/
theorem Mapper.cpuWrite_mmc1 {m : Mapper} {r : Mmc1} (h : m.chip = .mmc1 r) (a : Word) (v : Byte) :
    m.cpuWrite a v = if a.toNat < 0x8000 then m else { m with chip := .mmc1 (r.write a v) } := by
  rw [Mapper.cpuWrite, h]
  simp only [word_lt_8000]

/-- The reset write (R85). -/
theorem Mmc1.write_of_bit7 {v : Byte} (h : 128 ≤ v.toNat) (r : Mmc1) (a : Word) :
    r.write a v = { r with shift := 0x10, prgMode := 3 } := by
  rw [Mmc1.write, if_pos (by rw [bit7_eq]; exact decide_eq_true h)]

/-- Settles O44: a write reaches the registers only from 0x8000 on, and bit 7 makes it the reset write. -/
theorem mmc1ResetWrite : Obligations.Mmc1ResetWrite := fun m r a v h =>
  ⟨fun hlow => by rw [Mapper.cpuWrite_mmc1 h, if_pos hlow],
    fun hhigh hv => by rw [Mapper.cpuWrite_mmc1 h, if_neg (Nat.not_lt.mpr hhigh), Mmc1.write_of_bit7 hv]⟩

/-! ### The serial register of MMC1 -/

/-- A qualifying write shifts its low bit in from above (R86). -/
def Mmc1.shiftIn (x : BitVec 5) (v : Byte) : BitVec 5 := (x >>> 1) ||| ((v.extractLsb' 0 1).zeroExtend 5 <<< 4)

theorem Mmc1.toNat_shiftIn (x : BitVec 5) (v : Byte) : (shiftIn x v).toNat = x.toNat / 2 + 16 * (v.toNat % 2) := by
  have key : ∀ (x : BitVec 5) (b : BitVec 1), ((x >>> 1) ||| (b.zeroExtend 5 <<< 4)).toNat = x.toNat / 2 + 16 * b.toNat := by
    decide
  rw [shiftIn, key, BitVec.extractLsb'_toNat]
  rfl

/-- What a qualifying write does, by the marker's place (R86). -/
theorem Mmc1.write_of_low {v : Byte} (h : v.toNat < 128) (r : Mmc1) (a : Word) :
    r.write a v =
      if r.shift.toNat % 2 = 1 then { r.commit a (shiftIn r.shift v) with shift := 0x10 }
      else { r with shift := shiftIn r.shift v } := by
  have marker : ∀ x : BitVec 5, x.getLsbD 0 = decide (x.toNat % 2 = 1) := by decide
  rw [Mmc1.write, if_neg (by rw [bit7_eq]; simpa using h)]
  simp only [marker, decide_eq_true_eq]
  rfl

/-- A commit, but for the shift register, does not look at it. -/
theorem Mmc1.commit_setShift {r : Mmc1} (h : r.shift = 0x10) (x : BitVec 5) (a : Word) (v : BitVec 5) :
    { Mmc1.commit { r with shift := x } a v with shift := 0x10 } = r.commit a v := by
  obtain ⟨shift, mirroring, prgMode, chrMode, chrBank0, chrBank1, prgBank⟩ := r
  subst h
  unfold Mmc1.commit
  repeat' split
  all_goals rfl

/-- With the marker above bit 0 a qualifying write only shifts. -/
theorem Mmc1.write_shifts {v : Byte} (hv : v.toNat < 128) (r : Mmc1) {x : BitVec 5} (hx : x.toNat % 2 = 0) (a : Word) :
    ∃ y : BitVec 5, y.toNat = x.toNat / 2 + 16 * (v.toNat % 2) ∧ Mmc1.write { r with shift := x } a v = { r with shift := y } :=
  ⟨shiftIn x v, Mmc1.toNat_shiftIn x v, by rw [Mmc1.write_of_low hv, if_neg (by simp only; omega)]⟩

/-- With the marker in bit 0 it commits, and the shift register is back at its reset value. -/
theorem Mmc1.write_commits {v : Byte} (hv : v.toNat < 128) {r : Mmc1} (h : r.shift = 0x10) {x : BitVec 5} (hx : x.toNat % 2 = 1)
    (a : Word) :
    ∃ y : BitVec 5, y.toNat = x.toNat / 2 + 16 * (v.toNat % 2) ∧ Mmc1.write { r with shift := x } a v = r.commit a y :=
  ⟨shiftIn x v, Mmc1.toNat_shiftIn x v, by rw [Mmc1.write_of_low hv, if_pos hx, Mmc1.commit_setShift h]⟩

/-- Five qualifying writes from the reset marker commit their low bits, the first lowest. -/
theorem Mmc1.five_writes {r : Mmc1} (h : r.shift = 0x10) {v0 v1 v2 v3 v4 : Byte}
    (hv : v0.toNat < 128 ∧ v1.toNat < 128 ∧ v2.toNat < 128 ∧ v3.toNat < 128 ∧ v4.toNat < 128) (a1 a2 a3 a4 a5 : Word) :
    ∃ x : BitVec 5,
      x.toNat =
        v0.toNat % 2 + 2 * (v1.toNat % 2) + 4 * (v2.toNat % 2) + 8 * (v3.toNat % 2) + 16 * (v4.toNat % 2) ∧
      ((((r.write a1 v0).write a2 v1).write a3 v2).write a4 v3).write a5 v4 = r.commit a5 x := by
  obtain ⟨hv0, hv1, hv2, hv3, hv4⟩ := hv
  have h0 : r.shift.toNat = 16 := by rw [h]; rfl
  obtain ⟨x1, h1, e1⟩ := Mmc1.write_shifts hv0 r (x := r.shift) (by omega) a1
  obtain ⟨x2, h2, e2⟩ := Mmc1.write_shifts hv1 r (x := x1) (by omega) a2
  obtain ⟨x3, h3, e3⟩ := Mmc1.write_shifts hv2 r (x := x2) (by omega) a3
  obtain ⟨x4, h4, e4⟩ := Mmc1.write_shifts hv3 r (x := x3) (by omega) a4
  obtain ⟨x5, h5, e5⟩ := Mmc1.write_commits hv4 h (x := x4) (by omega) a5
  exact ⟨x5, by omega, by rw [show r.write a1 v0 = _ from e1, e2, e3, e4, e5]⟩

/-! ### The commit in numbers (R87, R88) -/

theorem mmc1Mirroring_eq (x : BitVec 5) :
    mmc1Mirroring x =
      if x.toNat % 4 = 0 then .oneScreenLow else if x.toNat % 4 = 1 then .oneScreenHigh
      else if x.toNat % 4 = 2 then .vertical else .horizontal := by
  revert x
  decide

/-- The register the fifth address selects takes the value. -/
theorem Mmc1.commit_eq (r : Mmc1) (a : Word) (x : BitVec 5) :
    r.commit a x =
      if a.toNat < 0xA000 then { r with
        mirroring := mmc1Mirroring x, prgMode := BitVec.ofNat 2 (x.toNat / 4), chrMode := decide (16 ≤ x.toNat) }
      else if a.toNat < 0xC000 then { r with chrBank0 := BitVec.ofNat 5 x.toNat }
      else if a.toNat < 0xE000 then { r with chrBank1 := BitVec.ofNat 5 x.toNat }
      else { r with prgBank := BitVec.ofNat 4 x.toNat } := by
  have mode : ∀ x : BitVec 5, x.extractLsb' 2 2 = BitVec.ofNat 2 (x.toNat / 4) := by decide
  have top : ∀ x : BitVec 5, x.getLsbD 4 = decide (16 ≤ x.toNat) := by decide
  have low : ∀ x : BitVec 5, x.extractLsb' 0 4 = BitVec.ofNat 4 x.toNat := by decide
  simp only [Mmc1.commit, word_lt_A000, word_lt_C000, word_lt_E000, mode, top, low, BitVec.ofNat_toNat, BitVec.setWidth_eq]

/-- Writes at or above 0x8000 reach the registers one after the other. -/
theorem Mapper.cpuWrite_mmc1_high (m : Mapper) (r : Mmc1) {a : Word} (ha : 0x8000 ≤ a.toNat) (v : Byte) :
    Mapper.cpuWrite { m with chip := .mmc1 r } a v = { m with chip := .mmc1 (r.write a v) } := by
  rw [Mapper.cpuWrite_mmc1 rfl, if_neg (Nat.not_lt.mpr ha)]

/-- Settles O43: five writes, then the commit in numbers. -/
theorem mmc1FifthWriteCommits : Obligations.Mmc1FifthWriteCommits := by
  intro m r a1 a2 a3 a4 a5 v0 v1 v2 v3 v4 hm hr ⟨ha1, ha2, ha3, ha4, ha5⟩ hv
  obtain ⟨x, hx, he⟩ := Mmc1.five_writes hr hv a1 a2 a3 a4 a5
  have after : ((((m.cpuWrite a1 v0).cpuWrite a2 v1).cpuWrite a3 v2).cpuWrite a4 v3).cpuWrite a5 v4 =
      { m with chip := .mmc1 (r.commit a5 x) } := by
    rw [Mapper.cpuWrite_mmc1 hm, if_neg (Nat.not_lt.mpr ha1), Mapper.cpuWrite_mmc1_high _ _ ha2, Mapper.cpuWrite_mmc1_high _ _ ha3,
      Mapper.cpuWrite_mmc1_high _ _ ha4, Mapper.cpuWrite_mmc1_high _ _ ha5, he]
  simp only [after, ← hx, ← mmc1Mirroring_eq, Mmc1.commit_eq]
  repeat' split
  all_goals rfl

end Sys2Proof.Machine
end

section
/-! The PPU side of the mappers, and the banked ones (20_memory.md R77, R80 to R82, R87, R93 to R98). -/

namespace Sys2Proof.Machine

/-! ### CHR (R80, R81, R93 to R95, R97, R98) -/

theorem Mapper.chrIsRam_iff (m : Mapper) : m.chrIsRam = true ↔ m.chrBanks = 0 := by simp [Mapper.chrIsRam]

/-- For every chip but MMC3 a read is of the CHR byte at the translated offset. -/
theorem Mapper.ppuRead_eq {m : Mapper} (hm : ∀ calls, m.chip ≠ .mmc3 calls) (c : BitVec 13) :
    m.ppuRead c = m.chr.read (m.chrOffset c) := by
  unfold Mapper.ppuRead
  split
  next calls hc => exact absurd hc (hm calls)
  · rfl

/-- For every chip but MMC3 a write is of the CHR RAM byte at the translated offset, if there is CHR RAM. -/
theorem Mapper.ppuWrite_eq {m : Mapper} (hm : ∀ calls, m.chip ≠ .mmc3 calls) (c : BitVec 13) (v : Byte) :
    m.ppuWrite c v = if m.chrBanks = 0 then { m with chr := m.chr.write (m.chrOffset c) v } else m := by
  unfold Mapper.ppuWrite
  split
  next calls hc => exact absurd hc (hm calls)
  · simp only [m.chrIsRam_iff]

/-- CHR RAM is not banked (R81, R95). -/
theorem Mapper.chrOffset_of_ram {m : Mapper} (h : m.chrBanks = 0) (c : BitVec 13) : m.chrOffset c = c.toNat := by
  rw [Mapper.chrOffset, if_pos (m.chrIsRam_iff.mpr h)]

theorem Mapper.ppuRead_of_ram {m : Mapper} (hm : ∀ calls, m.chip ≠ .mmc3 calls) (h : m.chrBanks = 0) (c : BitVec 13) :
    m.ppuRead c = m.chr.read c.toNat := by
  rw [Mapper.ppuRead_eq hm, Mapper.chrOffset_of_ram h]

/-- NROM and UxROM have no CHR bank (R80, R97). -/
theorem Mapper.chrOffset_unbanked {m : Mapper} {b : Byte} (h : m.chip = .nrom ∨ m.chip = .uxrom b) (c : BitVec 13) :
    m.chrOffset c = c.toNat := by
  unfold Mapper.chrOffset
  rcases h with h | h <;> rw [h] <;> exact ite_self _

theorem Mapper.chrSize_of_rom {m : Mapper} (h : m.chrBanks ≠ 0) : m.chrSize = m.chrBanks * 0x2000 := by
  rw [Mapper.chrSize, if_neg (mt m.chrIsRam_iff.mp h)]

theorem Mapper.chrOffset_cnrom {m : Mapper} {b : Byte} (h : m.chip = .cnrom b) (hr : m.chrBanks ≠ 0) (c : BitVec 13) :
    m.chrOffset c = (b.toNat * 0x2000 + c.toNat) % (m.chrBanks * 0x2000) := by
  rw [Mapper.chrOffset, if_neg (mt m.chrIsRam_iff.mp hr), h, ← Mapper.chrSize_of_rom hr]

/-- The CHR bank register with its bit 0 masked off, in numbers (R93). -/
theorem toNat_chrBank_mask (b : BitVec 5) : (b &&& 0x1E).toNat = b.toNat / 2 * 2 := by revert b; decide

theorem Mapper.chrOffset_mmc1 {m : Mapper} {r : Mmc1} (h : m.chip = .mmc1 r) (hr : m.chrBanks ≠ 0) (c : BitVec 13) :
    m.chrOffset c =
      if r.chrMode = false then (r.chrBank0.toNat / 2 * 2 * 0x1000 + c.toNat) % (m.chrBanks * 0x2000)
      else if c.toNat < 0x1000 then (r.chrBank0.toNat * 0x1000 + c.toNat) % (m.chrBanks * 0x2000)
      else (r.chrBank1.toNat * 0x1000 + (c.toNat - 0x1000)) % (m.chrBanks * 0x2000) := by
  rw [Mapper.chrOffset, if_neg (mt m.chrIsRam_iff.mp hr), h, ← Mapper.chrSize_of_rom hr, ← toNat_chrBank_mask]
  simp only [chr_lt_1000]
  cases r.chrMode <;> rfl

/-- CHR RAM reads back what was written, and keeps every other byte; CHR ROM ignores the write (R81, C2). -/
theorem Mapper.chr_read_write {m : Mapper} (hm : ∀ calls, m.chip ≠ .mmc3 calls) (c : BitVec 13) (v : Byte) :
    (m.chrBanks = 0 → m.ppuRead c = m.chr.read c.toNat ∧ (m.ppuWrite c v).ppuRead c = v ∧
        ∀ d : BitVec 13, d ≠ c → (m.ppuWrite c v).ppuRead d = m.ppuRead d) ∧
      (m.chrBanks ≠ 0 → m.ppuWrite c v = m) := by
  rw [Mapper.ppuWrite_eq hm]
  refine ⟨fun h => ?_, fun h => if_neg h⟩
  have after : ∀ d, Mapper.ppuRead { m with chr := m.chr.write c.toNat v } d = (m.chr.write c.toNat v).read d.toNat :=
    Mapper.ppuRead_of_ram (m := { m with chr := m.chr.write c.toNat v }) hm h
  have before := Mapper.ppuRead_of_ram hm h
  rw [if_pos h, Mapper.chrOffset_of_ram h]
  refine ⟨before c, ?_, fun d hd => ?_⟩
  · rw [after, Memory.read_write_same]
  · rw [after, before, Memory.read_write_other fun e => hd (BitVec.eq_of_toNat_eq e)]

/-! ### Nametables (R77) -/

theorem toNat_nametablePage_horizontal (n : BitVec 2) : (nametablePage .horizontal n).toNat = n.toNat / 2 := by revert n; decide

theorem toNat_nametablePage_vertical (n : BitVec 2) : (nametablePage .vertical n).toNat = n.toNat % 2 := by revert n; decide

theorem toNat_logicalNametable (q : BitVec 14) : (q.extractLsb' 10 2).toNat = q.toNat / 0x400 % 4 := by
  rw [BitVec.extractLsb'_toNat, Nat.shiftRight_eq_div_pow]

/-- The byte of a page in numbers. -/
theorem nametablePage_append (page : BitVec 1) (q : BitVec 14) :
    page ++ q.extractLsb' 0 10 = BitVec.ofNat 11 (page.toNat * 0x400 + q.toNat % 0x400) := by
  have hpage := page.isLt
  have hlow : (q.extractLsb' 0 10).toNat = q.toNat % 0x400 := by simp [BitVec.extractLsb'_toNat]
  apply BitVec.eq_of_toNat_eq
  rw [BitVec.toNat_append, ← Nat.shiftLeft_add_eq_or_of_lt (q.extractLsb' 0 10).isLt, Nat.shiftLeft_eq, hlow, BitVec.toNat_ofNat]
  omega

theorem Mapper.nametableAddress_eq (m : Mapper) (q : BitVec 14) :
    m.nametableAddress q =
      if 0x2000 ≤ q.toNat ∧ q.toNat < 0x3F00 then
        some (BitVec.ofNat 11 ((nametablePage m.mirroring (q.extractLsb' 10 2)).toNat * 0x400 + q.toNat % 0x400))
      else none := by
  have window : (0x2000 ≤ q ∧ q < 0x3F00) ↔ (0x2000 ≤ q.toNat ∧ q.toNat < 0x3F00) := Iff.rfl
  rw [← nametablePage_append]
  unfold Mapper.nametableAddress logicalNametable
  by_cases h : 0x2000 ≤ q.toNat ∧ q.toNat < 0x3F00
  · rw [if_pos (window.mpr h), if_pos h]
  · rw [if_neg (mt window.mp h), if_neg h]

/-! ### The banked mappers -/

theorem Mapper.cpuWrite_uxrom {m : Mapper} {b : Byte} (h : m.chip = .uxrom b) (a : Word) (v : Byte) :
    m.cpuWrite a v = if a.toNat < 0x8000 then m else { m with chip := .uxrom v } := by
  rw [Mapper.cpuWrite, h]
  simp only [word_lt_8000]

theorem Mapper.cpuWrite_cnrom {m : Mapper} {b : Byte} (h : m.chip = .cnrom b) (a : Word) (v : Byte) :
    m.cpuWrite a v = if a.toNat < 0x8000 then m else { m with chip := .cnrom v } := by
  rw [Mapper.cpuWrite, h]
  simp only [word_lt_8000]

/-- The mirroring of the chips without a mirroring register is the header's (R82, R97, R98). -/
theorem Mapper.mirroring_of_header {m : Mapper} {b : Byte} (h : m.chip = .nrom ∨ m.chip = .uxrom b ∨ m.chip = .cnrom b) :
    m.mirroring = m.headerMirroring := by
  unfold Mapper.mirroring
  rcases h with h | h | h <;> rw [h]

/-- Settles O46: chip by chip. -/
theorem bankedMappersTranslate : Obligations.BankedMappersTranslate := by
  intro m a c q ob v b r
  refine ⟨fun h => ⟨?_, Mapper.cpuWrite_uxrom h a v⟩,
    fun h => ⟨Mapper.cpuRead_unbanked (.inr h) a ob, Mapper.cpuWrite_cnrom h a v, fun hr => ?_⟩, fun h hr => ?_,
    fun hm => Mapper.chr_read_write hm c v, fun h => ?_, Mapper.mirroring_of_header, fun h => ?_, ?_⟩
  · rw [Mapper.cpuRead_uxrom h, apply_ite m.prgRom.read]
    rfl
  · rw [Mapper.ppuRead_eq (by simp [h]), Mapper.chrOffset_cnrom h hr]
  · rw [Mapper.ppuRead_eq (by simp [h]), Mapper.chrOffset_mmc1 h hr]
  · rw [Mapper.ppuRead_eq (by rcases h with h | h <;> simp [h]), Mapper.chrOffset_unbanked h]
  · rw [Mapper.mirroring, h]
  · rw [Mapper.nametableAddress_eq]
    cases m.mirroring
    case horizontal => rw [toNat_nametablePage_horizontal, toNat_logicalNametable]
    case vertical => rw [toNat_nametablePage_vertical, toNat_logicalNametable]
    case oneScreenLow | oneScreenHigh => rfl

end Sys2Proof.Machine
end

section
/-! The opcode map (30_encoding.md R113 to R117): what its rows read, that they agree with the encoder, that every instruction has
its row, and which bytes have none. -/

namespace Sys2Proof.Machine

/-! ### Rows and the encoder -/

/-- A row of the opcode map reads exactly these operand bytes, low byte first, and answers this instruction (R111, R112). -/
inductive FormReads : Form → List Byte → Instr → Prop
  | one (i : Instr) : FormReads (.one i) [] i
  | byte (f : Byte → Instr) (b : Byte) : FormReads (.byte f) [b] (f b)
  | word (f : Word → Instr) (w : Word) : FormReads (.word f) [loByte w, hiByte w] (f w)

/-- Row by row, the opcode map agrees with the encoder (R115). -/
theorem encode_of_mem_opcodeTable :
    ∀ row ∈ opcodeTable, ∀ bs i, FormReads row.2 bs i → encode i = row.1 :: bs := by
  rw [← List.forall_iff_forall_mem]
  repeat' apply And.intro
  all_goals intro bs i hr; cases hr; rfl

/-! ### Lookup -/

/-- A lookup answers a row of the table. -/
theorem mem_of_lookupOpcode {op : Byte} {F : Form} {rows : List (Byte × Form)} (h : lookupOpcode op rows = some F) :
    (op, F) ∈ rows := by
  induction rows with
  | nil => cases h
  | cons row rows ih =>
    rw [lookupOpcode] at h
    split at h
    next hb => cases h; subst hb; exact List.mem_cons_self
    · exact List.mem_cons_of_mem _ (ih h)

/-- A lookup fails when no row has the opcode. -/
theorem lookupOpcode_eq_none_iff {op : Byte} {rows : List (Byte × Form)} :
    lookupOpcode op rows = none ↔ op ∉ rows.map Prod.fst := by
  induction rows with
  | nil => simp [lookupOpcode]
  | cons row rows ih =>
    rw [lookupOpcode]
    split
    next hb => simp [hb]
    next hb => simp [ih, Ne.symm hb]

/-- The first of two tables with a row for the opcode answers it. -/
theorem lookupOpcode_append (op : Byte) (l m : List (Byte × Form)) :
    lookupOpcode op (l ++ m) = (lookupOpcode op l).or (lookupOpcode op m) := by
  induction l with
  | nil => rfl
  | cons row l ih =>
    rw [List.cons_append, lookupOpcode, lookupOpcode, ih]
    split <;> rfl

/-- When only one table can have a row for the opcode, the lookup in all of them is the lookup in that one. -/
theorem lookupOpcode_flatten {op : Byte} {tables : List (List (Byte × Form))} {n : Nat}
    (h : ∀ k, k ≠ n → lookupOpcode op (tables.getD k []) = none) :
    lookupOpcode op tables.flatten = lookupOpcode op (tables.getD n []) := by
  induction tables generalizing n with
  | nil => rfl
  | cons table tables ih =>
    rw [List.flatten_cons, lookupOpcode_append]
    cases n with
    | zero =>
      have rest := ih (n := tables.length) fun k _ => h (k + 1) k.succ_ne_zero
      rw [rest, List.getD_eq_default _ _ le_rfl]
      exact Option.or_none
    | succ n =>
      have first : lookupOpcode op table = none := h 0 n.succ_ne_zero.symm
      rw [first, Option.none_or, ih fun k hk => h (k + 1) (by simpa using hk)]
      rfl

/-! ### The map by the high digit of the opcode -/

/-- The sixteen lines of the opcode map, by the high digit of the opcode (R115). -/
def opcodeLines : List (List (Byte × Form)) :=
  [opcodes0x, opcodes1x, opcodes2x, opcodes3x, opcodes4x, opcodes5x, opcodes6x, opcodes7x, opcodes8x, opcodes9x, opcodesAx,
    opcodesBx, opcodesCx, opcodesDx, opcodesEx, opcodesFx]

theorem opcodeTable_eq_flatten : opcodeTable = opcodeLines.flatten := by
  unfold opcodeTable opcodeLines
  simp only [List.flatten_cons, List.flatten_nil, List.append_assoc, List.append_nil]

theorem opcodeLines_highDigit : opcodeLines.zipIdx.all (fun p => p.1.all (·.1.toNat / 16 == p.2)) = true := by decide

/-- A line other than the opcode's has no row for it. -/
theorem lookupOpcode_otherLine {op : Byte} {k : Nat} (hk : k ≠ op.toNat / 16) :
    lookupOpcode op (opcodeLines.getD k []) = none := by
  rw [List.getD_eq_getElem?_getD]
  cases hl : opcodeLines[k]? with
  | none => rfl
  | some line =>
    have digit := List.all_eq_true.mp opcodeLines_highDigit _ (List.mk_mem_zipIdx_iff_getElem?.mpr hl)
    refine lookupOpcode_eq_none_iff.mpr fun hop => ?_
    obtain ⟨row, hrow, rfl⟩ := List.mem_map.mp hop
    have := List.all_eq_true.mp digit row hrow
    exact hk (beq_iff_eq.mp this).symm

theorem decodeOpcode_eq_highDigit (op : Byte) :
    decodeOpcode op = lookupOpcode op (opcodeLines.getD (op.toNat / 16) []) := by
  rw [decodeOpcode, opcodeTable_eq_flatten]
  exact lookupOpcode_flatten fun _ => lookupOpcode_otherLine

/-- Every instruction has its row in the opcode map, which reads its operand bytes (R114, R115). -/
theorem formReads_opcode (i : Instr) : ∃ F, decodeOpcode i.opcode = some F ∧ FormReads F i.operand.bytes i := by
  rw [decodeOpcode_eq_highDigit]
  cases i <;> (dsimp only [Instr.opcode]; exact ⟨_, rfl, by constructor⟩)

/-! ### The bytes without a row -/

/-- The bytes of a list as the bits of a number, so that two lists are compared without comparing their bytes pairwise. -/
def byteMask : List Byte → Nat
  | [] => 0
  | b :: l => 2 ^ b.toNat ||| byteMask l

theorem testBit_byteMask (op : Byte) (l : List Byte) : (byteMask l).testBit op.toNat = decide (op ∈ l) := by
  induction l with
  | nil => simp [byteMask]
  | cons b l ih => simp [byteMask, Nat.testBit_two_pow, ih, BitVec.toNat_inj, eq_comm]

/-- Two lists whose masks differ in every bit share no byte and together have all 256. -/
theorem notMem_iff_mem_of_byteMask {l m : List Byte} (h : byteMask l ^^^ byteMask m = 2 ^ 256 - 1) (op : Byte) :
    op ∉ l ↔ op ∈ m := by
  have bit := congrArg (Nat.testBit · op.toNat) h
  simp only [Nat.testBit_xor, testBit_byteMask, Nat.testBit_two_pow_sub_one, op.isLt, decide_true] at bit
  by_cases hl : op ∈ l <;> simpa [hl] using bit

end Sys2Proof.Machine
end

section
/-! Decoding and encoding (30_encoding.md R110 to R118): the decoder reads what the row of the opcode reads, so it gives an encoded
instruction back, and what it decodes is encoded as the bytes it read. -/

namespace Sys2Proof.Machine

/-- The decoder reads what the row of the opcode reads, and answers the bytes after it. -/
theorem decode_of_formReads {op : Byte} {F : Form} {bs : List Byte} {i : Instr} (hop : decodeOpcode op = some F)
    (hr : FormReads F bs i) (rest : List Byte) : decode (op :: bs ++ rest) = .ok (i, rest) := by
  cases hr with
  | one => simp only [List.cons_append, List.nil_append, decode, hop]
  | byte => simp only [List.cons_append, List.nil_append, decode, hop]
  | word => simp only [List.cons_append, List.nil_append, decode, hop, mkWord_hiByte_loByte]

/-- Bytes that decode are an opcode with a row, what the row reads, and the rest. -/
theorem formReads_of_decode {l rest : List Byte} {i : Instr} (h : decode l = .ok (i, rest)) :
    ∃ op F bs, decodeOpcode op = some F ∧ FormReads F bs i ∧ l = op :: bs ++ rest := by
  unfold decode at h
  split at h
  · cases h
  next op _ =>
    split at h
    · cases h
    next hop =>
      cases h
      exact ⟨op, _, [], hop, .one i, rfl⟩
    next f hop =>
      split at h <;> cases h
      exact ⟨op, _, _, hop, .byte f _, rfl⟩
    next f hop =>
      split at h <;> cases h
      next lo hi => exact ⟨op, _, [lo, hi], hop, by simpa using FormReads.word f (mkWord hi lo), rfl⟩

/-- Settles O1: the row of the instruction reads its operand bytes. -/
theorem decodeOfEncodeIsTheInstruction : Obligations.DecodeOfEncodeIsTheInstruction := by
  intro i rest
  obtain ⟨F, hop, hr⟩ := formReads_opcode i
  exact decode_of_formReads hop hr rest

/-- Settles O2: the bytes are what a row read, and the encoder agrees with the row. -/
theorem decodedBytesAreTheEncoding : Obligations.DecodedBytesAreTheEncoding := by
  intro l i rest h
  obtain ⟨op, F, bs, hop, hr, rfl⟩ := formReads_of_decode h
  rw [encode_of_mem_opcodeTable _ (mem_of_lookupOpcode hop) bs i hr]

theorem decode_encode (i : Instr) : decode (encode i) = .ok (i, []) := by
  simpa using decodeOfEncodeIsTheInstruction i []

/-- Settles O5: each word is the encoding of its instruction. -/
theorem spelledWordsDecode : Obligations.SpelledWordsDecode :=
  ⟨decode_encode (.ldaImm 0x80), decode_encode (.staAbs 0x0200), decode_encode .tsx, decode_encode (.adcIndy 0x20),
    decode_encode .rorAcc, decode_encode (.jmpInd 0x02FF), decode_encode (.bne 0xF9), decode_encode .rti⟩

/-! ### Length (R110, R116) -/

/-- The opcode byte and the operand bytes make the length of the mode. -/
theorem operandBytes_length (o : Operand) : o.bytes.length + 1 = o.length := by
  cases o with
  | mem m => cases m <;> rfl
  | _ => rfl

theorem operandLength_bounds (o : Operand) : 1 ≤ o.length ∧ o.length ≤ 3 := by
  cases o with
  | mem m => cases m <;> simp [Operand.length]
  | _ => simp [Operand.length]

theorem length_encode (i : Instr) : (encode i).length = i.operand.length := operandBytes_length i.operand

/-- The columns of the opcode map give every opcode the length of its mode (R113). -/
theorem encodingLength_opcode (i : Instr) : encodingLength i.opcode = some i.operand.length := by
  cases i <;> (dsimp only [Instr.opcode]; rfl)

/-- Settles O3: the length is the mode's, in the encoder and in the columns of the opcode map. -/
theorem lengthIsFixedByTheOpcode : Obligations.LengthIsFixedByTheOpcode := by
  intro i
  rw [length_encode]
  exact ⟨rfl, encodingLength_opcode i, operandLength_bounds i.operand⟩

/-! ### Undocumented opcodes (R117) -/

/-- The decoder names an opcode as undocumented when the map has no row for it. -/
theorem decode_undocumented_iff (op : Byte) (rest : List Byte) :
    decode (op :: rest) = .error (.undocumentedOpcode op) ↔ decodeOpcode op = none := by
  cases hop : decodeOpcode op with
  | none => simp [decode, hop]
  | some F =>
    cases F with
    | one => simp [decode, hop]
    | byte => simp only [decode, hop]; split <;> simp
    | word => simp only [decode, hop]; split <;> simp

/-- Settles O4: the opcodes of the map and the listed bytes have complementary masks. -/
theorem undocumentedOpcodesAreTheListed : Obligations.UndocumentedOpcodesAreTheListed := by
  intro op rest
  rw [decode_undocumented_iff, decodeOpcode, lookupOpcode_eq_none_iff]
  exact notMem_iff_mem_of_byteMask (by decide +kernel) op

end Sys2Proof.Machine
end

section
/-! The fetch of stored bytes, and of an undocumented opcode (10_state.md R25; 20_memory.md R54; 30_encoding.md R117, R121). -/

namespace Sys2Proof.Machine

/-! ### Stored bytes -/

/-- A read of a stored byte returns it and changes only the latch (R54, R56). -/
theorem busRead_of_stored {s : State} {a : Word} {v : Byte} (h : s.stored a = some v) : busRead a s = (v, s.setOpenBus v) := by
  unfold State.stored at h
  split at h
  next ha =>
    cases h
    exact busRead_of_ram ha s
  · split at h <;> cases h
    next k hk =>
    have cart : 0x4020 ≤ a.toNat := by
      by_contra low
      rw [Mapper.prgOffset, if_pos ((word_lt_8000 a).mpr (by omega))] at hk
      cases hk
    rw [busRead_of_cart cart, Mapper.cpuRead_of_offset hk]

/-- A fetch of a stored byte moves PC past it and changes only the latch beside. -/
theorem fetchByte_of_stored {s : State} {v : Byte} (h : s.stored s.cpu.pc = some v) :
    fetchByte s = (v, (s.setOpenBus v).setPc (s.cpu.pc + 1)) := by
  rw [fetchByte, busRead_of_stored h]
  rfl

/-- Bytes stored from PC on are the ones read: PC moves past them, the latch holds the last, and nothing else changes. -/
theorem readBytes_of_stored {bs : List Byte} {s : State}
    (h : ∀ j, j < bs.length → s.stored (s.cpu.pc + BitVec.ofNat 16 j) = bs[j]?) :
    readBytes bs.length s = (bs, { s with cpu := { s.cpu with
      pc := s.cpu.pc + BitVec.ofNat 16 bs.length, openBus := bs.getLastD s.cpu.openBus } }) := by
  induction bs generalizing s with
  | nil => simp [readBytes]
  | cons b bs ih =>
    have first : s.stored s.cpu.pc = some b := by simpa using h 0 (by simp)
    have shift (j : Nat) : s.cpu.pc + BitVec.ofNat 16 (j + 1) = s.cpu.pc + 1 + BitVec.ofNat 16 j := by
      rw [BitVec.ofNat_add]
      ac_rfl
    have rest := ih (s := (s.setOpenBus b).setPc (s.cpu.pc + 1)) fun j hj =>
      (congrArg s.stored (shift j)).symm.trans (h (j + 1) (Nat.succ_lt_succ hj))
    rw [List.length_cons, readBytes_succ, fetchByte_of_stored first, rest, shift, List.getLastD_cons]
    rfl

/-- Settles O7: the stored bytes are read, and they decode to the instruction. -/
theorem fetchReadsTheStoredInstruction : Obligations.FetchReadsTheStoredInstruction :=
  fun _ i h => fetch_of_readBytes (readBytes_of_stored h) (decode_encode i)

/-! ### Undocumented opcodes -/

theorem fetch_undocumented {s : State} (h : decodeOpcode (busRead s.cpu.pc s).1 = none) :
    fetch s = .undocumented (busRead s.cpu.pc s).1 := by
  simp only [fetch, fetchByte_eq, h]

/-- A refusal or a fault has no next state to go on from (R260). -/
theorem andThen_refuseOpcode (f : State → State) (u : Unofficial) (op : Byte) (pc : Word) :
    andThen f (refuseOpcode u op pc) = refuseOpcode u op pc := by
  unfold refuseOpcode
  split <;> rfl

/-- A boundary step that fetches an undocumented opcode ends as `refuseOpcode` says, before the device steps. -/
theorem step_undocumented {s : State} (hb : s.AtBoundary) (hn : s.NoInterrupt)
    (h : decodeOpcode (busRead s.cpu.pc s).1 = none) :
    step s = refuseOpcode s.params.unofficial (busRead s.cpu.pc s).1 s.cpu.pc := by
  rw [step, cpuStep_boundary hb, boundary_fetches hn, fetchExecute, fetch_undocumented h, andThen_refuseOpcode,
    andThen_refuseOpcode]

/-- Settles O9: the two branches of `refuseOpcode`. -/
theorem undocumentedOpcodeEndsTheStep : Obligations.UndocumentedOpcodeEndsTheStep := by
  rintro s op hb hn rfl hop
  rw [step_undocumented hb hn hop, refuseOpcode]
  exact ⟨fun hu => if_neg (by simp [hu]), fun hu => ⟨fun hm => if_pos ⟨hu, hm⟩, fun hm => if_neg fun h => hm h.2⟩⟩

end Sys2Proof.Machine
end

section
/-! The effective addresses in numbers (40_addressing.md R134 to R142): indexing modulo 2^16 with its page crossing, and the
two bytes of a zero-page pointer. -/

namespace Sys2Proof.Machine

/-! ### The direct modes (R134 to R139) -/

/-- An index added within the zero page: the sum wraps in page 0 (R135, R136). -/
theorem toNat_zeroPage_add (z index : Byte) : (zeroPage (z + index)).toNat = (z.toNat + index.toNat) % 256 := by
  rw [toNat_zeroPage, BitVec.toNat_add]

theorem pageCrossed_eq (a b : Word) : pageCrossed a b = decide (a.toNat / 256 ≠ b.toNat / 256) := by
  simp only [pageCrossed, ne_eq, ← BitVec.toNat_inj, toNat_hiByte]

theorem toNat_indexed_addr (base : Word) (index : Byte) (s : State) :
    (indexed base index s).addr.toNat = (base.toNat + index.toNat) % 65536 := by
  rw [indexed, BitVec.toNat_add, toNat_zext16]

/-- The crossing of an indexed address, between the wrapped sum and the base. -/
theorem indexed_crossed (base : Word) (index : Byte) (s : State) :
    (indexed base index s).crossed =
      decide ((base.toNat + index.toNat) % 65536 / 256 ≠ base.toNat / 256) := by
  rw [← toNat_indexed_addr base index s, ← pageCrossed_eq]
  rfl

/-- Settles O34: zero-page sums are bytes, and the absolute ones are `indexed`. -/
theorem directModesAddress : Obligations.DirectModesAddress := by
  intro z w s
  exact ⟨⟨toNat_zeroPage z, rfl, rfl⟩, ⟨toNat_zeroPage_add z _, rfl, rfl⟩, ⟨toNat_zeroPage_add z _, rfl, rfl⟩,
    ⟨rfl, rfl, rfl⟩, ⟨toNat_indexed_addr w _ s, indexed_crossed w _ s, rfl⟩,
    ⟨toNat_indexed_addr w _ s, indexed_crossed w _ s, rfl⟩⟩

/-! ### Zero-page pointers (R141, R142) -/

/-- The pointer's high byte is one past its low byte, in the zero page. -/
theorem toNat_zeroPagePointer (z : Byte) (s : State) :
    (zeroPagePointer z s).1.toNat =
      (s.ram.read ((z.toNat + 1) % 256)).toNat * 256 + (s.ram.read z.toNat).toNat := by
  rw [zeroPagePointer_eq, ← mkWord_eq_wordOf, toNat_mkWord, BitVec.toNat_add]
  rfl

/-- The pointer reads leave the high byte on the latch, and nothing else. -/
theorem zeroPagePointer_state (z : Byte) (s : State) :
    (zeroPagePointer z s).2 = s.setOpenBus (s.ram.read ((z.toNat + 1) % 256)) := by
  rw [zeroPagePointer_eq, BitVec.toNat_add]
  rfl

/-- Settles O35: (zp,X) is the pointer at the wrapped sum, (zp),Y the pointer at the operand with Y added. -/
theorem pointerModesAddress : Obligations.PointerModesAddress := by
  intro z s
  dsimp only
  constructor
  · rw [← BitVec.toNat_add]
    exact ⟨toNat_zeroPagePointer _ s, rfl, zeroPagePointer_state _ s⟩
  · rw [← toNat_zeroPagePointer]
    exact ⟨toNat_indexed_addr _ _ _, indexed_crossed _ _ _, zeroPagePointer_state z s⟩

end Sys2Proof.Machine
end

section
/-! The encodings of a mnemonic (30_encoding.md R111, R115): an instruction's opcode, mode and cycle count are its row's, so the
"Encodings" line of a rule is checked on the rows of the opcode map. -/

namespace Sys2Proof.Machine

/-- A row's instruction, with operand 0. -/
def rowSample : Form → Instr
  | .one i => i
  | .byte f => f 0
  | .word f => f 0

/-- What the "Encodings" line of a rule lists of an instruction: `EncodedAs` is membership of it. -/
def encodingOf (i : Instr) : Byte × Mode × Nat := (i.opcode, modeOf i.operand, i.baseCycles)

/-- Row by row, the operand changes neither the mnemonic nor the encoding (R110). -/
theorem sample_of_mem_opcodeTable :
    ∀ row ∈ opcodeTable, ∀ bs i, FormReads row.2 bs i →
      (rowSample row.2).mnemonic = i.mnemonic ∧ encodingOf (rowSample row.2) = encodingOf i := by
  rw [← List.forall_iff_forall_mem]
  repeat' apply And.intro
  all_goals intro bs i hr; cases hr; exact ⟨rfl, rfl⟩

/-- The encodings of the rows of a mnemonic. -/
def rowEncodings (k : Mnemonic) : List (Byte × Mode × Nat) :=
  ((opcodeTable.map (rowSample ·.2)).filter (·.mnemonic == k)).map encodingOf

/-- An instruction has the encoding of one of its mnemonic's rows. -/
theorem encodedAs_of_rowEncodings {i : Instr} {k : Mnemonic} {l : List (Byte × Mode × Nat)} (h : i.mnemonic = k)
    (hl : rowEncodings k ⊆ l) : EncodedAs i l := by
  obtain ⟨F, hF, hr⟩ := formReads_opcode i
  have hmem := mem_of_lookupOpcode hF
  obtain ⟨hm, he⟩ := sample_of_mem_opcodeTable _ hmem _ _ hr
  exact hl (List.mem_map.mpr ⟨_, List.mem_filter.mpr ⟨List.mem_map_of_mem hmem, beq_iff_eq.mpr (hm.trans h)⟩, he⟩)

end Sys2Proof.Machine
end

section
/-! Loads and stores (41_load_store.md R150 to R155): the read class and the write class with their operations, in the spec's
numbers. -/

namespace Sys2Proof.Machine

/-- An instruction of the read class leaves what its operation makes of the operand and of the state its read left (R144). -/
theorem exec_read_eq {i : Instr} {k : Mnemonic} (h : i.mnemonic = k) (hk : k ∈ readMnemonics) (s : State)
    {result : Byte → Nat → State → State}
    (hop : ∀ m n t, (readOp k m t).setCycles (i.baseCycles + n) = result m n t) :
    ∃ m n t, OperandRead i.operand s m n t ∧ exec i s = .next (result m n t) := by
  subst h
  obtain ⟨m, n, t, hr, he⟩ := exec_read_operand s hk
  exact ⟨m, n, t, hr, he.trans (congrArg _ (hop m n t))⟩

/-- Settles O11: the rows of each mnemonic, and `loadA`, `loadX` and `loadY` on the operand. -/
theorem loadsPutTheOperandInTheRegister : Obligations.LoadsPutTheOperandInTheRegister := by
  intro i s
  refine ⟨fun h => ⟨encodedAs_of_rowEncodings h (by decide), exec_read_eq h (by decide) s fun m n t => ?_⟩,
    fun h => ⟨encodedAs_of_rowEncodings h (by decide), exec_read_eq h (by decide) s fun m n t => ?_⟩,
    fun h => ⟨encodedAs_of_rowEncodings h (by decide), exec_read_eq h (by decide) s fun m n t => ?_⟩⟩
  all_goals rw [← nz_eq_NZ]; rfl

/-- An instruction of the write class makes one write, of its register at the effective address (R144). -/
theorem exec_store {i : Instr} {k : Mnemonic} (h : i.mnemonic = k) (hk : k ∈ writeMnemonics) (s : State) :
    ∃ m, i.operand = .mem m ∧ exec i s =
      .next ((busWrite (effective m s).addr (storedRegister k s.cpu) (effective m s).state).setCycles i.baseCycles) := by
  subst h
  exact exec_write i s hk

/-- Settles O12: the rows of each mnemonic, and the write class with the register stored. -/
theorem storesWriteTheRegister : Obligations.StoresWriteTheRegister := fun _ s =>
  ⟨fun h => ⟨encodedAs_of_rowEncodings h (by decide), exec_store h (by decide) s⟩,
    fun h => ⟨encodedAs_of_rowEncodings h (by decide), exec_store h (by decide) s⟩,
    fun h => ⟨encodedAs_of_rowEncodings h (by decide), exec_store h (by decide) s⟩⟩

end Sys2Proof.Machine
end

section
/-! Transfers and stack instructions (42_transfer_stack.md R160 to R169): the load operations and one push or pull, in the
spec's numbers. -/

namespace Sys2Proof.Machine

/-- The "Encodings" line of an instruction with one form. -/
theorem encodedAs_singleton {i : Instr} {e : Byte × Mode × Nat} (h : encodingOf i = e) : EncodedAs i [e] :=
  List.mem_singleton.mpr h

/-! ### A register written with its flags: `NZ(v)` in numbers -/

theorem loadA_eq (v : Byte) (s : State) :
    loadA v s = { s with cpu := { s.cpu with a := v, p := NZ s.cpu.p v } } := by
  rw [← nz_eq_NZ]; rfl

theorem loadX_eq (v : Byte) (s : State) :
    loadX v s = { s with cpu := { s.cpu with x := v, p := NZ s.cpu.p v } } := by
  rw [← nz_eq_NZ]; rfl

theorem loadY_eq (v : Byte) (s : State) :
    loadY v s = { s with cpu := { s.cpu with y := v, p := NZ s.cpu.p v } } := by
  rw [← nz_eq_NZ]; rfl

/-- Equal states give equal answers: what `exec` answers is rewritten under its cycle count. -/
theorem next_setCycles_congr {s t : State} (h : s = t) (n : Nat) :
    (.next (s.setCycles n) : Result) = .next (t.setCycles n) := by rw [h]

/-- Settles O13: five transfers are a load of the source register, TXS writes SP alone. -/
theorem transfersCopyRegisters : Obligations.TransfersCopyRegisters := fun s =>
  ⟨encodedAs_singleton rfl, encodedAs_singleton rfl, encodedAs_singleton rfl,
    encodedAs_singleton rfl, encodedAs_singleton rfl, encodedAs_singleton rfl,
    next_setCycles_congr (loadX_eq s.cpu.a s) 2, next_setCycles_congr (loadY_eq s.cpu.a s) 2,
    next_setCycles_congr (loadX_eq s.cpu.sp s) 2, next_setCycles_congr (loadA_eq s.cpu.x s) 2,
    rfl, next_setCycles_congr (loadA_eq s.cpu.y s) 2⟩

/-! ### The stack instructions -/

theorem exec_pla_eq (s : State) : exec .pla s = .next ((loadA (pull s).1 (pull s).2).setCycles 4) := rfl

theorem exec_plp_eq (s : State) :
    exec .plp s = .next (((pull s).2.setP (Flags.ofByte (pull s).1)).setCycles 4) := rfl

/-- Settles O14: PHA and PHP are one push, of A and of the status byte; PLA and PLP are one pull, loaded into A or the flags. -/
theorem stackInstructionsPushAndPull : Obligations.StackInstructionsPushAndPull := by
  intro s
  refine ⟨encodedAs_singleton rfl, encodedAs_singleton rfl, encodedAs_singleton rfl, encodedAs_singleton rfl,
    next_setCycles_congr (push_eq s.cpu.a s) 3, ?php, ?pla, ?plp⟩
  case php =>
    rw [← toByte_eq_statusByte]
    exact next_setCycles_congr (push_eq _ s) 3
  case pla =>
    rw [exec_pla_eq, loadA_eq, pull_eq]
    rfl
  case plp =>
    rw [exec_plp_eq, ofByte_eq_flagsOf, pull_eq]
    rfl

end Sys2Proof.Machine
end

section
/-! Arithmetic, logic and compare (43_arith_logic.md R180 to R189): the flag computations in the spec's numbers, and the read class
with A, X, Y and the flags as they were before the operand was read. -/

namespace Sys2Proof.Machine

/-! ### ADC and SBC -/

theorem bitNat_le_one (b : Bool) : bitNat b ≤ 1 := by cases b <;> decide

/-- ADC's flags in numbers, of its own result (R181). -/
theorem adc_flags (p : Flags) (a m : Byte) :
    (p.adc a m).2 = { NZ p (p.adc a m).1 with
      c := decide (256 ≤ a.toNat + m.toNat + bitNat p.c)
      v := decide (128 ≤ ((a ^^^ (p.adc a m).1) &&& (m ^^^ (p.adc a m).1)).toNat) } := by
  rw [← nz_eq_NZ, ← bit7_eq, ← (adc_sum p a m).2]
  rfl

/-- A byte as a signed number, by its bit 7. -/
theorem toInt_by_sign (v : Byte) :
    v.toNat < 128 ∧ v.toInt = v.toNat ∨ (128 ≤ v.toNat ∧ v.toNat < 256) ∧ v.toInt = v.toNat - 256 := by
  have := v.isLt
  rw [BitVec.toInt_eq_toNat_cond]
  omega

/-- The complement SBC adds is `255 - M`, and `-M - 1` as a signed byte (R182). -/
theorem xor_ff_eq_not (m : Byte) : m ^^^ 0xFF = ~~~m := BitVec.xor_allOnes

@[inherit_doc xor_ff_eq_not]
theorem toNat_complement (m : Byte) : (m ^^^ 0xFF).toNat = 255 - m.toNat := by
  rw [xor_ff_eq_not, BitVec.toNat_not]

@[inherit_doc xor_ff_eq_not]
theorem toInt_complement (m : Byte) : (m ^^^ 0xFF).toInt = -m.toInt - 1 := by
  have := toNat_complement m
  have := toInt_by_sign m
  have := toInt_by_sign (m ^^^ 0xFF)
  omega

/-- SBC's result in numbers: A minus M minus the borrow, modulo 2^8. -/
theorem sbc_difference (p : Flags) (a m : Byte) :
    (p.sbc a m).1 = BitVec.ofNat 8 (a.toNat + 256 - m.toNat - (1 - bitNat p.c)) := by
  rw [Flags.sbc, (adc_sum p a _).1, toNat_complement]
  have := m.isLt
  have := bitNat_le_one p.c
  congr 1
  omega

/-- SBC's carry in numbers: the inverse of the unsigned borrow. -/
theorem sbc_carry (p : Flags) (a m : Byte) :
    (p.sbc a m).2.c = decide (m.toNat + (1 - bitNat p.c) ≤ a.toNat) := by
  rw [Flags.sbc, (adc_sum p a _).2, toNat_complement, decide_eq_decide]
  have := m.isLt
  have := bitNat_le_one p.c
  omega

/-- Bit by bit, `A` differs from `r` and the complement of `M` does too exactly when `A` differs from both `M` and `r`. -/
theorem overflow_of_complement (a m r : Byte) :
    (a ^^^ r) &&& ((m ^^^ 0xFF) ^^^ r) = (a ^^^ m) &&& (a ^^^ r) := by
  rw [xor_ff_eq_not]
  ext j hj
  simp only [BitVec.getElem_and, BitVec.getElem_xor, BitVec.getElem_not]
  cases a[j] <;> cases m[j] <;> cases r[j] <;> rfl

/-- SBC's flags in numbers, of its own result (R182). -/
theorem sbc_flags (p : Flags) (a m : Byte) :
    (p.sbc a m).2 = { NZ p (p.sbc a m).1 with
      c := decide (m.toNat + (1 - bitNat p.c) ≤ a.toNat)
      v := decide (128 ≤ ((a ^^^ m) &&& (a ^^^ (p.sbc a m).1)).toNat) } := by
  rw [← nz_eq_NZ, ← bit7_eq, ← sbc_carry, ← overflow_of_complement]
  rfl

/-- V of ADC is signed overflow: a sum is out of range when A and M have one sign and the result the other. -/
theorem adc_overflow (p : Flags) (a m : Byte) :
    (p.adc a m).2.v = decide (a.toInt + m.toInt + bitNat p.c < -128 ∨ 127 < a.toInt + m.toInt + bitNat p.c) := by
  have hsign : (p.adc a m).2.v = ((a.getLsbD 7 ^^ (p.adc a m).1.getLsbD 7) && (m.getLsbD 7 ^^ (p.adc a m).1.getLsbD 7)) := by
    rw [← BitVec.getLsbD_xor, ← BitVec.getLsbD_xor, ← BitVec.getLsbD_and]
    rfl
  have hr : (p.adc a m).1.toNat = (a.toNat + m.toNat + bitNat p.c) % 256 := by
    rw [(adc_sum p a m).1, BitVec.toNat_ofNat]
  have := bitNat_le_one p.c
  rw [hsign, bit7_eq, bit7_eq, bit7_eq, hr, Bool.eq_iff_iff]
  simp only [Bool.and_eq_true, Bool.xor_iff_ne, ne_eq, decide_eq_decide, decide_eq_true_eq]
  rcases toInt_by_sign a with ⟨ha, hai⟩ | ⟨ha, hai⟩ <;> rcases toInt_by_sign m with ⟨hm, hmi⟩ | ⟨hm, hmi⟩ <;> omega

/-- V of SBC is signed overflow of the difference: ADC's, of `-M - 1`. -/
theorem sbc_overflow (p : Flags) (a m : Byte) :
    (p.sbc a m).2.v =
      decide (a.toInt - m.toInt - (1 - bitNat p.c : Int) < -128 ∨ 127 < a.toInt - m.toInt - (1 - bitNat p.c : Int)) := by
  rw [Flags.sbc, adc_overflow, toInt_complement, decide_eq_decide]
  omega

/-- Settles O17: the carries and overflows above; no part of ADC reads D. -/
theorem overflowIsSignedAndDecimalIsIgnored : Obligations.OverflowIsSignedAndDecimalIsIgnored := fun p a m =>
  ⟨adc_overflow p a m, sbc_overflow p a m, (adc_sum p a m).2, sbc_carry p a m, fun _ => ⟨rfl, rfl, rfl, rfl⟩⟩

/-! ### BIT and the compares -/

theorem bit_eq (p : Flags) (a m : Byte) :
    p.bit a m = { p with
      z := decide ((a &&& m).toNat = 0)
      n := decide (128 ≤ m.toNat)
      v := decide (64 ≤ m.toNat % 128) } := by
  simp only [Flags.bit, eq_zero_iff, bit7_eq, bit6_eq]

theorem compare_eq (p : Flags) (r m : Byte) :
    p.compare r m = { p with
      c := decide (m.toNat ≤ r.toNat)
      z := decide (m.toNat = r.toNat)
      n := decide (128 ≤ (r.toNat + 256 - m.toNat) % 256) } := by
  have hn : (r - m).toNat = (r.toNat + 256 - m.toNat) % 256 := by
    have := m.isLt
    rw [BitVec.toNat_sub]
    omega
  have hz : r = m ↔ m.toNat = r.toNat := by rw [BitVec.toNat_inj, eq_comm]
  simp only [Flags.compare, bit7_eq, hn, hz]

/-! ### The instructions -/

/-- The rule of a read-class mnemonic (R144): the encodings of its rows, and its operation, whose result may speak of the
registers and flags before the operand was read, for the read leaves them. -/
theorem encodedAs_and_exec_read {i : Instr} {k : Mnemonic} {l : List (Byte × Mode × Nat)} (h : i.mnemonic = k)
    (hk : k ∈ readMnemonics) (hl : rowEncodings k ⊆ l) (s : State) {result : Byte → Nat → State → State}
    (hop : ∀ m n t, t.cpu.a = s.cpu.a → t.cpu.x = s.cpu.x → t.cpu.y = s.cpu.y → t.cpu.p = s.cpu.p →
      (readOp k m t).setCycles (i.baseCycles + n) = result m n t) :
    EncodedAs i l ∧ ∃ m n t, OperandRead i.operand s m n t ∧ exec i s = .next (result m n t) := by
  refine ⟨encodedAs_of_rowEncodings h hl, ?_⟩
  subst h
  obtain ⟨m, n, t, hr, he⟩ := exec_read_operand s hk
  obtain ⟨ha, hx, hy, -, -, hp⟩ := operandRead_registers hr
  exact ⟨m, n, t, hr, he.trans (congrArg _ (hop m n t ha hx hy hp))⟩

/-- Settles O15: the rows of ADC, and its operation in numbers. -/
theorem adcAddsWithCarry : Obligations.AdcAddsWithCarry := fun i s h =>
  encodedAs_and_exec_read h (by decide) (by decide) s fun m n t ha _ _ hp => by
    rw [← ha, ← hp, ← (adc_sum t.cpu.p t.cpu.a m).1, ← adc_flags]
    rfl

/-- Settles O16: the rows of SBC, and its operation in numbers. -/
theorem sbcSubtractsWithBorrow : Obligations.SbcSubtractsWithBorrow := fun i s h =>
  encodedAs_and_exec_read h (by decide) (by decide) s fun m n t ha _ _ hp => by
    rw [← ha, ← hp, ← sbc_difference, ← sbc_flags]
    rfl

/-- Settles O18: the rows of each mnemonic, and a load of the bitwise result. -/
theorem logicInstructionsCombineWithA : Obligations.LogicInstructionsCombineWithA := by
  intro i s
  refine ⟨fun h => encodedAs_and_exec_read h (by decide) (by decide) s fun m n t ha _ _ _ => ?_,
    fun h => encodedAs_and_exec_read h (by decide) (by decide) s fun m n t ha _ _ _ => ?_,
    fun h => encodedAs_and_exec_read h (by decide) (by decide) s fun m n t ha _ _ _ => ?_⟩
  all_goals
    rw [← ha]
    exact congrArg (State.setCycles · _) (loadA_eq _ t)

/-- Settles O19: the rows of BIT, and its flags in numbers. -/
theorem bitTestsTheOperand : Obligations.BitTestsTheOperand := fun i s h =>
  encodedAs_and_exec_read h (by decide) (by decide) s fun m n t ha _ _ _ => by
    rw [← ha, ← bit_eq]
    rfl

/-- Settles O20: the rows of each mnemonic, and the comparison of its register in numbers. -/
theorem comparesWriteNZC : Obligations.ComparesWriteNZC := by
  intro i s
  refine ⟨fun h => encodedAs_and_exec_read h (by decide) (by decide) s fun m n t ha _ _ _ => ?cmp,
    fun h => encodedAs_and_exec_read h (by decide) (by decide) s fun m n t _ hx _ _ => ?cpx,
    fun h => encodedAs_and_exec_read h (by decide) (by decide) s fun m n t _ _ hy _ => ?cpy⟩
  case cmp => beta_reduce; rw [← ha, ← compare_eq]; rfl
  case cpx => beta_reduce; rw [← hx, ← compare_eq]; rfl
  case cpy => beta_reduce; rw [← hy, ← compare_eq]; rfl

end Sys2Proof.Machine
end

section
/-! Increments, decrements, shifts and rotates (44_incdec_shift.md R200 to R209): the results in the spec's numbers, and the
read-modify-write class on the accumulator and on memory. -/

namespace Sys2Proof.Machine

/-! ### Plus and minus 1 modulo 2^8 -/

theorem add_one_eq (v : Byte) : v + 1 = BitVec.ofNat 8 (v.toNat + 1) := by
  rw [BitVec.ofNat_add, BitVec.ofNat_toNat, BitVec.setWidth_eq]
  rfl

theorem sub_one_eq (v : Byte) : v - 1 = BitVec.ofNat 8 (v.toNat + 255) := by
  rw [BitVec.ofNat_add, BitVec.ofNat_toNat, BitVec.setWidth_eq, BitVec.sub_eq_add_neg]
  rfl

theorem inc_eq (p : Flags) (v : Byte) :
    p.inc v = (BitVec.ofNat 8 (v.toNat + 1), NZ p (BitVec.ofNat 8 (v.toNat + 1))) := by
  rw [← add_one_eq, ← nz_eq_NZ]
  rfl

theorem dec_eq (p : Flags) (v : Byte) :
    p.dec v = (BitVec.ofNat 8 (v.toNat + 255), NZ p (BitVec.ofNat 8 (v.toNat + 255))) := by
  rw [← sub_one_eq, ← nz_eq_NZ]
  rfl

/-- Settles O22: each is a load of the index register, of its old value plus or minus 1. -/
theorem indexRegistersCount : Obligations.IndexRegistersCount := by
  intro s
  dsimp only
  simp only [← add_one_eq, ← sub_one_eq]
  exact ⟨encodedAs_singleton rfl, encodedAs_singleton rfl, encodedAs_singleton rfl, encodedAs_singleton rfl,
    next_setCycles_congr (loadX_eq _ s) 2, next_setCycles_congr (loadY_eq _ s) 2,
    next_setCycles_congr (loadX_eq _ s) 2, next_setCycles_congr (loadY_eq _ s) 2⟩

/-! ### The shifted byte -/

/-- The old carry as a byte, as the rotates bring it in. -/
theorem toNat_carryByte (c : Bool) : ((BitVec.ofBool c).zeroExtend 8 : Byte).toNat = bitNat c := by
  cases c <;> rfl

theorem shiftLeft_one_eq (v : Byte) : v <<< 1 = BitVec.ofNat 8 (v.toNat * 2) := by
  apply BitVec.eq_of_toNat_eq
  rw [BitVec.toNat_shiftLeft, Nat.shiftLeft_eq, BitVec.toNat_ofNat]

theorem shiftRight_one_eq (v : Byte) : v >>> 1 = BitVec.ofNat 8 (v.toNat / 2) := by
  apply BitVec.eq_of_toNat_eq
  have := v.isLt
  rw [BitVec.toNat_ushiftRight, Nat.shiftRight_eq_div_pow, BitVec.toNat_ofNat]
  omega

/-- A rotation to the left: the vacated bit 0 takes the old carry, so the two parts add (R208). -/
theorem rotateLeft_eq (v : Byte) (c : Bool) :
    (v <<< 1) ||| (BitVec.ofBool c).zeroExtend 8 = BitVec.ofNat 8 (v.toNat * 2 + bitNat c) := by
  have hc := bitNat_le_one c
  have hv : v.toNat * 2 % 256 = 2 ^ 1 * (v.toNat % 128) := by omega
  apply BitVec.eq_of_toNat_eq
  rw [BitVec.toNat_or, toNat_carryByte, shiftLeft_one_eq, BitVec.toNat_ofNat, BitVec.toNat_ofNat, hv,
    ← Nat.two_pow_add_eq_or_of_lt (by omega)]
  omega

/-- A rotation to the right: the vacated bit 7 takes the old carry, so the two parts add (R209). -/
theorem rotateRight_eq (v : Byte) (c : Bool) :
    ((BitVec.ofBool c).zeroExtend 8 <<< 7) ||| (v >>> 1) = BitVec.ofNat 8 (bitNat c * 128 + v.toNat / 2) := by
  have hc := bitNat_le_one c
  have hv := v.isLt
  have hcarry : bitNat c <<< 7 % 2 ^ 8 = bitNat c <<< 7 := by
    rw [Nat.shiftLeft_eq]
    omega
  apply BitVec.eq_of_toNat_eq
  rw [BitVec.toNat_or, BitVec.toNat_shiftLeft, toNat_carryByte, BitVec.toNat_ushiftRight, hcarry,
    ← Nat.shiftLeft_add_eq_or_of_lt (by omega), Nat.shiftLeft_eq, BitVec.toNat_ofNat]
  omega

/-! ### The shifts and rotates of a byte -/

/-- What a shift or rotate of `v` answers, in numbers: the byte `f v`, `out v` the bit shifted out to C, N and Z of the
result (R206 to R209). -/
def shiftedBy (f : Nat → Nat) (out : Nat → Bool) (p : Flags) (v : Byte) : Byte × Flags :=
  (BitVec.ofNat 8 (f v.toNat), { NZ p (BitVec.ofNat 8 (f v.toNat)) with c := out v.toNat })

theorem asl_eq (p : Flags) (v : Byte) : p.asl v = shiftedBy (fun v => v * 2) (fun v => decide (128 ≤ v)) p v := by
  simp only [shiftedBy, ← shiftLeft_one_eq, ← bit7_eq, ← nz_eq_NZ]
  rfl

theorem lsr_eq (p : Flags) (v : Byte) : p.lsr v = shiftedBy (fun v => v / 2) (fun v => decide (v % 2 = 1)) p v := by
  simp only [shiftedBy, ← shiftRight_one_eq, ← bit0_eq, ← nz_eq_NZ]
  rfl

theorem rol_eq (p : Flags) (v : Byte) :
    p.rol v = shiftedBy (fun v => v * 2 + bitNat p.c) (fun v => decide (128 ≤ v)) p v := by
  simp only [shiftedBy, ← rotateLeft_eq, ← bit7_eq, ← nz_eq_NZ]
  rfl

theorem ror_eq (p : Flags) (v : Byte) :
    p.ror v = shiftedBy (fun v => bitNat p.c * 128 + v / 2) (fun v => decide (v % 2 = 1)) p v := by
  simp only [shiftedBy, ← rotateRight_eq, ← bit0_eq, ← nz_eq_NZ]
  rfl

/-! ### The instructions -/

/-- Only the shifts and rotates have an accumulator form, and it takes 2 cycles (R132). -/
theorem shift_of_operand_acc {i : Instr} (h : i.operand = .acc) : i.mnemonic ∈ shiftMnemonics ∧ i.baseCycles = 2 := by
  cases i <;> cases h <;> decide

/-- An instruction of the read-modify-write class (R144): its operation gets the flags from before the operand was read, for the
read leaves them. -/
theorem exec_modify_eq {i : Instr} {k : Mnemonic} (h : i.mnemonic = k) (hk : k ∈ modifyMnemonics) (s : State)
    {op : Byte → Byte × Flags} (hop : ∀ v, modifyOp k s.cpu.p v = op v) :
    (i.operand = .acc ∧ exec i s = .next (((s.setA (op s.cpu.a).1).setP (op s.cpu.a).2).setCycles 2)) ∨
      ∃ m v u, i.operand = .mem m ∧ busRead (effective m s).addr (effective m s).state = (v, u) ∧
        exec i s = .next (((busWrite (effective m s).addr (op v).1 u).setP (op v).2).setCycles i.baseCycles) := by
  subst h
  rcases exec_modify i s hk with ⟨ho, he⟩ | ⟨m, ho, he⟩
  · refine .inl ⟨ho, ?_⟩
    rw [he, (shift_of_operand_acc ho).2, ← hop]
    rfl
  · refine .inr ⟨m, _, _, ho, rfl, ?_⟩
    rw [he, ← hop, ← busRead_effective_p m s]
    rfl

/-- A mnemonic outside the shifts and rotates has no accumulator form. -/
theorem operand_ne_acc {i : Instr} {k : Mnemonic} (h : i.mnemonic = k) (hk : k ∉ shiftMnemonics) : i.operand ≠ .acc :=
  fun ho => hk (h ▸ (shift_of_operand_acc ho).1)

/-- Settles O21: the rows of each mnemonic, and the memory form with the byte plus 1 or minus 1. -/
theorem incDecModifyMemory : Obligations.IncDecModifyMemory := fun _ s =>
  ⟨fun h => ⟨encodedAs_of_rowEncodings h (by decide),
      (exec_modify_eq h (by decide) s (inc_eq s.cpu.p)).resolve_left fun hacc => operand_ne_acc h (by decide) hacc.1⟩,
    fun h => ⟨encodedAs_of_rowEncodings h (by decide),
      (exec_modify_eq h (by decide) s (dec_eq s.cpu.p)).resolve_left fun hacc => operand_ne_acc h (by decide) hacc.1⟩⟩

/-- Settles O23: the rows of each mnemonic, and both forms with the shift or rotate in numbers. -/
theorem shiftsAndRotates : Obligations.ShiftsAndRotates := fun _ s =>
  ⟨fun h => ⟨encodedAs_of_rowEncodings h (by decide), (exec_modify_eq h (by decide) s (asl_eq s.cpu.p) :)⟩,
    fun h => ⟨encodedAs_of_rowEncodings h (by decide), (exec_modify_eq h (by decide) s (lsr_eq s.cpu.p) :)⟩,
    fun h => ⟨encodedAs_of_rowEncodings h (by decide), (exec_modify_eq h (by decide) s (rol_eq s.cpu.p) :)⟩,
    fun h => ⟨encodedAs_of_rowEncodings h (by decide), (exec_modify_eq h (by decide) s (ror_eq s.cpu.p) :)⟩⟩

end Sys2Proof.Machine
end

section
/-! Branches, jumps, calls and returns (45_control.md R220 to R231) in the spec's numbers. -/

namespace Sys2Proof.Machine

/-! ### Branches -/

/-- A branch target is computed with the offset as a signed number (R143). -/
theorem branchTarget_eq (d : Byte) (s : State) :
    branchTarget d s = BitVec.ofInt 16 (s.cpu.pc.toNat + d.toInt) := by
  rw [BitVec.ofInt_add, BitVec.ofInt_natCast, BitVec.ofNat_toNat, BitVec.setWidth_eq]
  rfl

/-- The common rule of the branches (R220): a taken one crosses a page when the high bytes differ. -/
theorem branch_eq (cond : Bool) (d : Byte) (s : State) : branch cond d s = branchResult cond d s := by
  cases cond
  case false => rfl
  case true =>
    simp only [branch, branchResult, branchTarget_eq, pageCrossed_eq, if_true, decide_eq_true_eq, ne_eq, ite_not]
    split <;> rfl

/-- Settles O24: the rows, and the common rule on the condition of each. -/
theorem branchesTestTheirFlag : Obligations.BranchesTestTheirFlag := by
  intro d s
  have exec_eq cond : (.next (branch cond d s) : Result) = .next (branchResult cond d s) := by rw [branch_eq]
  exact ⟨encodedAs_singleton rfl, encodedAs_singleton rfl, encodedAs_singleton rfl, encodedAs_singleton rfl,
    encodedAs_singleton rfl, encodedAs_singleton rfl, encodedAs_singleton rfl, encodedAs_singleton rfl,
    exec_eq _, exec_eq _, exec_eq _, exec_eq _, exec_eq _, exec_eq _, exec_eq _, exec_eq _⟩

/-! ### Jumps -/

/-- The byte after a pointer in the pointer's page (R140, D14). -/
theorem mkWord_loByte_add_one (w : Word) :
    mkWord (hiByte w) (loByte w + 1) = BitVec.ofNat 16 (w.toNat / 256 * 256 + (w.toNat + 1) % 256) := by
  have hlo : (loByte w + 1).toNat = (w.toNat + 1) % 256 := by
    rw [BitVec.toNat_add, toNat_loByte]
    exact Nat.mod_add_mod ..
  rw [mkWord_eq_wordOf, wordOf, toNat_hiByte, hlo]

/-- Settles O25: the pointer's high byte is read at the address the parameter chooses. -/
theorem jumpsLoadPc : Obligations.JumpsLoadPc := by
  intro w s
  refine ⟨encodedAs_singleton rfl, encodedAs_singleton rfl, rfl, ?_⟩
  simp only [← mkWord_loByte_add_one, ← mkWord_eq_wordOf]
  rfl

/-! ### Calls and returns -/

theorem exec_jsr (w : Word) (s : State) :
    exec (.jsr w) s = .next (((push16 (s.cpu.pc - 1) s).setPc w).setCycles 6) := rfl

/-- JSR (R230): a 16-bit push of `PCn - 1`, then the jump. -/
theorem exec_jsr_eq (w : Word) (s : State) :
    exec (.jsr w) s = .next { s with
      ram := (s.ram.write (stackIndex s.cpu.sp) (highOf (s.cpu.pc - 1))).write (stackIndex (s.cpu.sp - 1))
        (lowOf (s.cpu.pc - 1))
      cpu := { s.cpu with sp := s.cpu.sp - 2, pc := w, openBus := lowOf (s.cpu.pc - 1), cyclesRemaining := 5 } } := by
  rw [exec_jsr, push16_eq]
  rfl

theorem exec_rts (s : State) : exec .rts s = .next (((pull16 s).2.setPc ((pull16 s).1 + 1)).setCycles 6) := rfl

/-- RTS (R231): a 16-bit pull, plus 1. -/
theorem exec_rts_eq (s : State) :
    exec .rts s = .next { s with cpu := { s.cpu with
      sp := s.cpu.sp + 2
      pc := wordOf (s.ram.read (stackIndex (s.cpu.sp + 2))) (s.ram.read (stackIndex (s.cpu.sp + 1))) + 1
      openBus := s.ram.read (stackIndex (s.cpu.sp + 2))
      cyclesRemaining := 5 } } := by
  rw [exec_rts, pull16_eq]
  rfl

/-- Settles O26: the rows, and one 16-bit push and pull. -/
theorem jsrAndRtsLinkThroughTheStack : Obligations.JsrAndRtsLinkThroughTheStack := fun w s =>
  ⟨encodedAs_singleton rfl, encodedAs_singleton rfl, exec_jsr_eq w s, exec_rts_eq s⟩

end Sys2Proof.Machine
end

section
/-! Returns undo calls and interrupt entries (45_control.md R230, R231; 46_flags_system.md R248; 60_exceptions.md R267, R270):
what a frame's bytes read back as, for every stack pointer. -/

namespace Sys2Proof.Machine

/-! ### Taking an interrupt and returning from it, in numbers -/

/-- Taking an interrupt or the BRK trap (R247, R261, R267): the vector is read from the cartridge, so the read leaves only the
latch. -/
theorem enterInterrupt_eq {vector : Word} (hv : 0x4020 ≤ vector.toNat) (hv' : 0x4020 ≤ (vector + 1).toNat) (ret : Word)
    (b : Bool) (s : State) : enterInterrupt vector ret b s = entryResult vector ret b s := by
  have hsp : s.cpu.sp - 2 - 1 = s.cpu.sp - 3 := by bv_omega
  simp only [enterInterrupt, push16_eq, push_eq, read16, busRead_of_cart hv, busRead_of_cart hv', toByte_eq_statusByte,
    mkWord_eq_wordOf, hsp]
  rfl

theorem enterNmi_eq (s : State) : enterNmi s = entryResult 0xFFFA s.cpu.pc false (s.setNmiPending false) :=
  enterInterrupt_eq (by decide) (by decide) s.cpu.pc false _

theorem enterIrq_eq (s : State) : enterIrq s = entryResult 0xFFFE s.cpu.pc false s :=
  enterInterrupt_eq (by decide) (by decide) s.cpu.pc false s

theorem exec_rti (s : State) : exec .rti s = .next ((returnFromInterrupt s).setCycles 6) := rfl

/-- RTI (R248): one pull into the flags, then a 16-bit pull, with no + 1. -/
theorem exec_rti_eq (s : State) :
    exec .rti s = .next { s with cpu := { s.cpu with
      p := flagsOf (s.ram.read (stackIndex (s.cpu.sp + 1)))
      sp := s.cpu.sp + 3
      pc := wordOf (s.ram.read (stackIndex (s.cpu.sp + 3))) (s.ram.read (stackIndex (s.cpu.sp + 2)))
      openBus := s.ram.read (stackIndex (s.cpu.sp + 3))
      cyclesRemaining := 5 } } := by
  have h2 : s.cpu.sp + 1 + 1 = s.cpu.sp + 2 := by bv_omega
  have h3 : s.cpu.sp + 1 + 2 = s.cpu.sp + 3 := by bv_omega
  rw [exec_rti]
  simp only [returnFromInterrupt, pull_eq, pull16_eq, State.setP_cpu, State.setP_ram, ofByte_eq_flagsOf, h2, h3]
  rfl

/-! ### Reading a frame back -/

theorem wordOf_highOf_lowOf (w : Word) : wordOf (highOf w) (lowOf w) = w := by
  rw [← mkWord_eq_wordOf, ← hiByte_eq_highOf, ← loByte_eq_lowOf, mkWord_hiByte_loByte]

/-- A push leaves the other stack bytes. -/
theorem Memory.read_write_stack_other {i j : Byte} (h : i ≠ j) (m : Memory) (v : Byte) :
    (m.write (stackIndex j) v).read (stackIndex i) = m.read (stackIndex i) :=
  Memory.read_write_other (mt stackIndex_inj h) m v

/-- The two bytes of a pushed word, read back: they lie in different cells for every SP. -/
theorem wordOf_read_pushed (m : Memory) (sp : Byte) (w : Word) :
    let m' := (m.write (stackIndex sp) (highOf w)).write (stackIndex (sp - 1)) (lowOf w)
    wordOf (m'.read (stackIndex sp)) (m'.read (stackIndex (sp - 1))) = w := by
  have h : sp ≠ sp - 1 := by bv_omega
  simp only [Memory.read_write_stack_other h, Memory.read_write_same, wordOf_highOf_lowOf]

/-- RTS right after JSR (R230, R231). -/
theorem exec_rts_of_jsr {w : Word} {s t : State} (h : exec (.jsr w) s = .next t) :
    ∃ u, exec .rts t = .next u ∧ u.cpu.pc = s.cpu.pc ∧ u.cpu.sp = s.cpu.sp ∧ u.cpu.p = s.cpu.p := by
  rw [exec_jsr_eq] at h
  cases h
  have h1 : s.cpu.sp - 2 + 1 = s.cpu.sp - 1 := by bv_omega
  have h2 : s.cpu.sp - 2 + 2 = s.cpu.sp := sub_add_cancel ..
  refine ⟨_, exec_rts_eq _, ?pc, h2, rfl⟩
  case pc =>
    simp only [h1, h2, wordOf_read_pushed]
    exact sub_add_cancel ..

/-- RTI right after an entry (R248, R267): the status byte lies below the pushed word, and holds the flags before I was set. -/
theorem exec_rti_of_entryResult (vector ret : Word) (b : Bool) (s : State) :
    ∃ u, exec .rti (entryResult vector ret b s) = .next u ∧ u.cpu.pc = ret ∧ u.cpu.sp = s.cpu.sp ∧ u.cpu.p = s.cpu.p ∧
      u.cpu.a = s.cpu.a ∧ u.cpu.x = s.cpu.x ∧ u.cpu.y = s.cpu.y := by
  have h1 : s.cpu.sp - 3 + 1 = s.cpu.sp - 2 := by bv_omega
  have h2 : s.cpu.sp - 3 + 2 = s.cpu.sp - 1 := by bv_omega
  have h3 : s.cpu.sp - 3 + 3 = s.cpu.sp := sub_add_cancel ..
  refine ⟨_, exec_rti_eq _, ?pc, h3, ?flags, rfl, rfl, rfl⟩
  case pc =>
    have hlo : s.cpu.sp - 1 ≠ s.cpu.sp - 2 := by bv_omega
    have hhi : s.cpu.sp ≠ s.cpu.sp - 2 := by bv_omega
    simp only [entryResult, h2, h3, Memory.read_write_stack_other hlo, Memory.read_write_stack_other hhi,
      wordOf_read_pushed]
  case flags => simp only [entryResult, h1, Memory.read_write_same, flagsOf_statusByte]

/-- Settles O60: RTS pulls the word JSR pushed; RTI pulls the frame of the entry. -/
theorem returnsUndoCallsAndEntries : Obligations.ReturnsUndoCallsAndEntries := by
  refine fun w s t => ⟨exec_rts_of_jsr, ?_⟩
  rintro (rfl | rfl)
  · rw [enterNmi_eq]
    exact exec_rti_of_entryResult ..
  · rw [enterIrq_eq]
    exact exec_rti_of_entryResult ..

end Sys2Proof.Machine
end

section
/-! Flag and system instructions (46_flags_system.md R240 to R249): the one write of `P`, and BRK and RTI as the entry and the
return in the spec's numbers. -/

namespace Sys2Proof.Machine

theorem exec_brk (s : State) : exec .brk s = .next (enterInterrupt irqVector (s.cpu.pc + 1) true s) := rfl

/-- BRK (R247) is the interrupt entry with B = 1 through the IRQ vector; I is not tested. -/
theorem exec_brk_eq (s : State) : exec .brk s = .next (entryResult 0xFFFE (s.cpu.pc + 1) true s) := by
  rw [exec_brk, enterInterrupt_eq (by decide) (by decide)]
  rfl

/-- Settles O28: the row, and the entry's own effect. -/
theorem brkTakesTheTrap : Obligations.BrkTakesTheTrap := fun s =>
  ⟨encodedAs_singleton rfl, exec_brk_eq s⟩

/-- Settles O29: the row, and one pull into the flags before the 16-bit pull. -/
theorem rtiReturns : Obligations.RtiReturns := fun s =>
  ⟨encodedAs_singleton rfl, exec_rti_eq s⟩

/-- What a flag instruction answers (R240 to R246): the new flags and the count of a 2-cycle instruction. -/
theorem next_setP_setCycles_two (p : Flags) (s : State) :
    (.next ((s.setP p).setCycles 2) : Result) = .next { s with cpu := { s.cpu with p := p, cyclesRemaining := 1 } } := rfl

/-- Settles O27: the eight rows; each flag instruction is one write of `P` (R240 to R246), NOP only counts (R249). -/
theorem flagInstructionsAndNop : Obligations.FlagInstructionsAndNop := fun s =>
  ⟨encodedAs_singleton rfl, encodedAs_singleton rfl, encodedAs_singleton rfl, encodedAs_singleton rfl,
    encodedAs_singleton rfl, encodedAs_singleton rfl, encodedAs_singleton rfl, encodedAs_singleton rfl,
    next_setP_setCycles_two { s.cpu.p with c := false } s, next_setP_setCycles_two { s.cpu.p with d := false } s,
    next_setP_setCycles_two { s.cpu.p with i := false } s, next_setP_setCycles_two { s.cpu.p with v := false } s,
    next_setP_setCycles_two { s.cpu.p with c := true } s, next_setP_setCycles_two { s.cpu.p with d := true } s,
    next_setP_setCycles_two { s.cpu.p with i := true } s, rfl⟩

end Sys2Proof.Machine
end

section
/-! Save and restore (60_exceptions.md R276, D31): no run of steps changes the slot or the ROM, so a snapshot put back into the
cartridge it was copied from gives the saved System. -/

namespace Sys2Proof.Machine

/-! ### Any number of steps -/

/-- A run that reaches a state is a step that reaches one, and a run from there. -/
theorem run_succ_eq_next {M : Host.Core} {n : Nat} {s t : M.State} (h : M.run (n + 1) s = .next t) :
    ∃ u, M.step s = .next u ∧ M.run n u = .next t := by
  unfold Host.Core.run at h
  split at h
  next u hu => exact ⟨u, hu, h⟩
  · cases h
  · cases h

theorem State.sameBoard_run {n : Nat} {s t : State} (h : Host.Core.run core n s = .next t) : s.SameBoard t := by
  induction n generalizing s with
  | zero => cases h; exact State.SameBoard.refl _
  | succ n ih =>
    obtain ⟨u, hu, hrun⟩ := run_succ_eq_next h
    exact (stepNeverChangesTheRom s u hu).trans (ih hrun)

/-! ### The slot -/

theorem restore_of_saved {s : State} {c : Snapshot} (h : s.slot = some c) : restore s = (s.resume c, true) := by
  simp only [restore, h]

theorem restore_of_empty {s : State} (h : s.slot = none) : restore s = (s, false) := by
  simp only [restore, h]

/-- A snapshot is all of the System but the ROM, so it comes back on a board with the same ROM (R100, R276). -/
theorem State.sameSystem_resume_snapshot {s t : State} (h : s.cart.SameRom t.cart) : s.SameSystem (t.resume s.snapshot) :=
  ⟨rfl, rfl, rfl, rfl, rfl, Mapper.copyIn_copyOut h⟩

/-- Settles O56: the steps after the save keep the slot and the ROM. -/
theorem restoreBringsBackTheSavedSystem : Obligations.RestoreBringsBackTheSavedSystem := by
  intro s t n h
  obtain ⟨-, slot, rom⟩ := ((save s).sameBoard_iff t).mp (State.sameBoard_run h)
  rw [restore_of_saved slot]
  exact ⟨rfl, State.sameSystem_resume_snapshot rom⟩

/-- Settles O57: the two branches of a restore, and a save as a write of the slot alone. -/
theorem restoreWithoutASaveIsRefused : Obligations.RestoreWithoutASaveIsRefused :=
  fun _ => ⟨restore_of_empty, rfl, rfl, rfl, rfl, rfl, rfl, rfl⟩

end Sys2Proof.Machine
end

section
/-! Interrupts at the boundary and the frame unit (60_exceptions.md R260 to R267, R275): what the CPU step is for each thing
polled, and that only the fetch of an undocumented opcode has no next state. -/

namespace Sys2Proof.Machine

/-! ### The inputs -/

/-- The edge detector as one equation: the pending flag is set on a rise and otherwise stays (R263). -/
theorem nmiSample_eq (l : Bool) (s : State) :
    nmiSample l s = { s with cpu := { s.cpu with
      nmiPending := s.cpu.nmiPending || (l && !s.cpu.nmiLinePrev), nmiLinePrev := l } } := by
  unfold nmiSample
  cases hrise : l && !s.cpu.nmiLinePrev
  · rw [Bool.or_false]
    rfl
  · rw [Bool.or_true]
    rfl

theorem State.irqLine_iff (s : State) :
    s.irqLine = true ↔ s.cart.irqOut = true ∨ s.apu.frameIrq = true ∨ s.apu.dmcIrq = true := by
  simp only [State.irqLine, Bool.or_eq_true, or_assoc]

/-- Only an MMC3 drives the IRQ input (R264). -/
theorem Mapper.irqOut_of_ne_mmc3 {m : Mapper} (h : ∀ calls, m.chip ≠ .mmc3 calls) : m.irqOut = false := by
  unfold Mapper.irqOut
  split
  next c calls hc => exact absurd hc (h _)
  · rfl

theorem busRead_apuStatus_apu (s : State) : (busRead 0x4015 s).2.apu = s.apu.afterRead := rfl

/-- Settles O47: the edge detector, the three sources, and the APU after a read of 0x4015. -/
theorem interruptInputs : Obligations.InterruptInputs := by
  intro l s
  rw [busRead_apuStatus_apu]
  exact ⟨nmiSample_eq l s, s.irqLine_iff, Mapper.irqOut_of_ne_mmc3, rfl, rfl⟩

/-! ### The entries -/

/-- Settles O48: both sequences are the entry of an interrupt, at their vectors. -/
theorem interruptEntryPushesTheFrame : Obligations.InterruptEntryPushesTheFrame :=
  fun s => ⟨enterNmi_eq s, enterIrq_eq s⟩

/-! ### The boundary -/

/-- A pending NMI comes first, whatever I and the IRQ input are (R265, R266). -/
theorem cpuStep_of_nmi {s : State} (hb : s.AtBoundary) (hn : s.cpu.nmiPending = true) :
    cpuStep s = .next (enterNmi s).toggleOdd := by
  rw [cpuStep_boundary hb, boundary, if_pos hn]
  rfl

/-- Without one, an asserted IRQ is taken when I = 0 (R265, R266). -/
theorem cpuStep_of_irq {s : State} (hb : s.AtBoundary) (hn : s.cpu.nmiPending = false) (hirq : s.irqLine = true)
    (hi : s.cpu.p.i = false) : cpuStep s = .next (enterIrq s).toggleOdd := by
  rw [cpuStep_boundary hb, boundary, if_neg (by simp [hn]), if_pos (by simp [hirq, hi])]
  rfl

/-- Settles O49: the three branches of the boundary, the entries in numbers. -/
theorem interruptsAreTakenAtTheBoundary : Obligations.InterruptsAreTakenAtTheBoundary := by
  refine fun s hb => ⟨fun hn => ?_, fun hn hirq hi => ?_, fun hn hmask => ?_⟩
  · rw [cpuStep_of_nmi hb hn, enterNmi_eq]
    rfl
  · rw [cpuStep_of_irq hb hn hirq hi, enterIrq_eq]
  · rw [cpuStep_boundary hb, boundary_fetches ⟨hn, hmask⟩]

/-! ### Where a step stops -/

theorem State.safe_of_cpuStep {s t : State} (h : cpuStep s = .next t) : s.Safe :=
  ⟨devicePhase t, by rw [step, h]; rfl⟩

/-- A documented opcode is fetched with its operand bytes, whatever they are (R121). -/
theorem fetch_documented {s : State} {F : Form} (h : decodeOpcode (busRead s.cpu.pc s).1 = some F) :
    ∃ i t, fetch s = .instr i t := by
  simp only [fetch, fetchByte_eq, h]
  cases F <;> exact ⟨_, _, rfl⟩

/-- A boundary step that fetches a documented opcode has a next state, since every instruction has one. -/
theorem State.safe_of_documented {s : State} {F : Form} (hb : s.AtBoundary) (hn : s.NoInterrupt)
    (h : decodeOpcode (busRead s.cpu.pc s).1 = some F) : s.Safe := by
  obtain ⟨i, t, hf⟩ := fetch_documented h
  obtain ⟨u, hu⟩ := exec_next i t
  exact State.safe_of_cpuStep (t := u.toggleOdd) (by rw [cpuStep_of_fetch hb hn hf, hu]; rfl)

/-- Settles O10: the branches of the CPU step, each with its next state but the last. -/
theorem onlyUndocumentedOpcodesStopTheMachine : Obligations.OnlyUndocumentedOpcodesStopTheMachine := by
  intro s
  by_cases hstall : s.cpu.stallRemaining = 0
  case neg => exact .inl (State.safe_of_cpuStep (cpuStep_of_stall hstall))
  by_cases hcycles : s.cpu.cyclesRemaining = 0
  case neg => exact .inl (State.safe_of_cpuStep (cpuStep_of_countdown hstall hcycles))
  have hb : s.AtBoundary := ⟨hstall, hcycles⟩
  cases hn : s.cpu.nmiPending
  case true => exact .inl (State.safe_of_cpuStep (cpuStep_of_nmi hb hn))
  by_cases hmask : s.irqLine = false ∨ s.cpu.p.i = true
  case neg =>
    obtain ⟨hirq, hi⟩ := not_or.mp hmask
    exact .inl (State.safe_of_cpuStep
      (cpuStep_of_irq hb hn (Bool.eq_true_of_not_eq_false hirq) (Bool.eq_false_of_not_eq_true hi)))
  have hno : s.NoInterrupt := ⟨hn, hmask⟩
  cases hop : decodeOpcode (busRead s.cpu.pc s).1 with
  | none => exact .inr ⟨hb, hno, rfl⟩
  | some F => exact .inl (State.safe_of_documented hb hno hop)

/-! ### The interleave -/

/-- Settles O52: a step is the CPU step and then the device steps, which are these (R275). -/
theorem stepInterleavesOneThreeOne : Obligations.StepInterleavesOneThreeOne := by
  intro s t
  constructor
  · intro h
    obtain ⟨u, hu, ht⟩ := step_eq_next h
    exact ⟨u, _, _, _, hu, rfl, rfl, rfl, ht⟩
  · rintro ⟨u, s1, s2, s3, hu, rfl, rfl, rfl, rfl⟩
    rw [step, hu]
    rfl

end Sys2Proof.Machine
end

section
/-! PPUSTATUS, sprite DMA and the DMC fetch on the bus (60_exceptions.md R285, R288, R293, R295). -/

namespace Sys2Proof.Machine

/-! ### PPUSTATUS (R288) -/

/-- Port 2 is PPUSTATUS, at 0x2002 and every mirror of it (R286). -/
theorem target_ppuStatus {a : Word} (h : 0x2000 ≤ a.toNat) (h' : a.toNat < 0x4000) (h2 : a.toNat % 8 = 2) :
    target a = .ppu 2 := by
  rw [target_ppu h h', ppuPort_eq, h2]
  rfl

theorem Ppu.portValue_status_bit7 (p : Ppu) (free : Byte) : (p.portValue 2 free).getLsbD 7 = p.vblank := by
  rw [Ppu.portValue, if_pos rfl, BitVec.getLsbD_append]
  simp

/-- Settles O39: the port's value and the PPU after the port's read. -/
theorem ppuStatusReadClearsVblank : Obligations.PpuStatusReadClearsVblank := by
  intro a s h h' h2
  have ht := target_ppuStatus h h' h2
  have hppu : (busRead a s).2.ppu = s.ppu.afterRead 2 := by rw [busRead_ppu, ht]
  rw [hppu]
  refine ⟨?_, rfl, rfl, rfl, rfl⟩
  simp only [busRead, targetRead, ht, Ppu.portValue_status_bit7]

/-! ### Sprite DMA from a RAM page (R295, D16) -/

/-- Byte `k` of the page `v`, in internal RAM (R55). -/
def State.pageByte (s : State) (v : Byte) (k : Nat) : Byte := s.ram.read ((v.toNat * 256 + k) % 2048)

/-- One byte of a DMA from RAM: a write of OAMDATA with the byte read, which is left on the latch. -/
theorem oamCopy_of_ram {v : Byte} (hv : v.toNat < 0x20) {k : Nat} (hk : k < 256) (s : State) :
    oamCopy (mkWord v (BitVec.ofNat 8 k)) s =
      (s.setOpenBus (s.pageByte v k)).setPpu (s.ppu.afterWrite 4 (s.pageByte v k)) := by
  have ha : (mkWord v (BitVec.ofNat 8 k)).toNat = v.toNat * 256 + k := by
    rw [toNat_mkWord, BitVec.toNat_ofNat, Nat.mod_eq_of_lt hk]
  have hlt : (mkWord v (BitVec.ofNat 8 k)).toNat < 0x2000 := by omega
  simp only [oamCopy, busRead_of_ram hlt, ha]
  rfl

/-- The last `n` bytes of a DMA from RAM are those from `256 - n` on, each one call, newest first. -/
theorem oamCopies_calls {v : Byte} (hv : v.toNat < 0x20) {n k : Nat} (hk : k + n = 256) (s : State) :
    (oamCopies v n s).ppu.calls =
      (List.range' k n).reverse.map (fun j => PpuCall.write 4 (s.pageByte v j)) ++ s.ppu.calls := by
  induction n generalizing k s with
  | zero => rfl
  | succ n ih =>
    have hfirst : 255 - n = k := by omega
    rw [oamCopies, hfirst, ih (k := k + 1) (by omega), oamCopy_of_ram hv (by omega), List.range'_succ, List.reverse_cons,
      List.map_append, List.append_assoc]
    rfl

/-- The last byte of a DMA from RAM, byte 255 of the page, stays on the latch. -/
theorem oamCopies_openBus {v : Byte} (hv : v.toNat < 0x20) {n : Nat} (hn : n < 256) (s : State) :
    (oamCopies v (n + 1) s).cpu.openBus = s.pageByte v 255 := by
  induction n generalizing s with
  | zero => rw [oamCopies, oamCopies, oamCopy_of_ram hv (by decide)]; rfl
  | succ n ih =>
    rw [oamCopies, ih (by omega), oamCopy_of_ram hv (by omega)]
    rfl

theorem busWrite_oamDmaPort (v : Byte) (s : State) : busWrite 0x4014 v s = spriteDma v (s.setOpenBus v) := rfl

theorem spriteDma_of_enabled {s : State} (h : s.params.oamDmaEnabled = true) (v : Byte) :
    spriteDma v s = (oamCopies v 256 s).addStall (513 + (if s.cpu.oddCycle then 1 else 0)) := by
  rw [spriteDma, if_pos h]

/-- Settles O41: the 256 copies from the latch's new byte on, then the stall. -/
theorem spriteDmaCopiesAPage : Obligations.SpriteDmaCopiesAPage := by
  intro s v hv
  refine ⟨fun hon => ?_, fun hoff => ?_⟩
  · obtain ⟨hcpu, hram, -⟩ := oamCopies_frame v 256 (s.setOpenBus v)
    rw [busWrite_oamDmaPort, spriteDma_of_enabled (s := s.setOpenBus v) hon]
    refine ⟨?_, ?_, oamCopies_openBus hv (by decide) _, hram⟩
    · rw [State.addStall_ppu, oamCopies_calls hv (k := 0) rfl, List.range_eq_range']
      rfl
    · rw [State.addStall_cpu, hcpu]
      show s.cpu.stallRemaining + (513 + if s.cpu.oddCycle then 1 else 0) = _
      cases s.cpu.oddCycle <;> rfl
  · rw [busWrite_oamDmaPort, spriteDma, if_neg (by simp [hoff])]
    rfl

/-! ### The DMC fetch (R293, D17) -/

/-- An APU step in which the block fetches a sample. -/
theorem apuStep_of_fetch {s : State} {u : ApuTick} {rest : List ApuTick} {a : Word} (henv : s.env.apu = u :: rest)
    (hu : u.dmcFetch = some a) :
    apuStep s = dmcFetch a { s with apu := u.onApu s.apu, env := { s.env with apu := rest } } := by
  simp only [apuStep, Env.apuTick, henv, List.headD_cons, List.tail_cons, hu]
  rfl

/-- Settles O51: a read through the decoder, which leaves of the CPU only the latch, then the call and the stall. -/
theorem dmcFetchStallsTheCpu : Obligations.DmcFetchStallsTheCpu := by
  intro s u rest a henv hu s0 b t
  have ht : t = dmcFetch a s0 := apuStep_of_fetch henv hu
  rw [ht]
  refine ⟨?_, busRead_ram a s0, busRead_cart a s0, rfl, busRead_env_apu a s0⟩
  simp only [dmcFetch, State.addStall_cpu, State.setApu_cpu, busRead_cpu]
  rfl

end Sys2Proof.Machine
end

section
/-! The PPU's position and its vblank flag (60_exceptions.md R280, R289, R290; logs 11 and 13). -/

namespace Sys2Proof.Machine

/-- In range a line ends after dot 340, or where the block shortens an odd frame (log 11). -/
theorem Ppu.lineEnds_iff {p : Ppu} (h : p.InRange) (shorten : Bool) :
    p.lineEnds shorten = true ↔
      p.dot = 340 ∨ (shorten = true ∧ p.frameOdd = true ∧ p.scanline = 261 ∧ p.dot = 339) := by
  have hdot : 340 ≤ p.dot ↔ p.dot = 340 := ⟨fun hd => Nat.le_antisymm h.2 hd, Nat.le_of_eq ∘ Eq.symm⟩
  simp only [Ppu.lineEnds, Bool.or_eq_true, Bool.and_eq_true, decide_eq_true_eq, hdot, and_assoc]

/-- The position is one count of dots modulo a frame, but at the dot a shortened frame leaves out (R280). -/
theorem Ppu.advance_count {p : Ppu} (h : p.InRange) {shorten : Bool}
    (hs : ¬ (shorten = true ∧ p.frameOdd = true ∧ p.scanline = 261 ∧ p.dot = 339)) (clearDot : Nat) :
    (p.advance clearDot shorten).scanline * 341 + (p.advance clearDot shorten).dot =
      (p.scanline * 341 + p.dot + 1) % 89342 := by
  obtain ⟨hline, hdot⟩ := h
  have hends := Ppu.lineEnds_iff ⟨hline, hdot⟩ shorten
  simp only [Ppu.advance]
  cases he : p.lineEnds shorten
  · have hne : p.dot ≠ 340 := fun hd => by simp [hends.mpr (.inl hd)] at he
    simp only [Bool.false_eq_true, if_false]
    omega
  · have heq : p.dot = 340 := (hends.mp he).resolve_right hs
    rw [heq]
    simp only [if_true]
    split
    next hlast => rw [Nat.le_antisymm hline hlast]
    next hnext => rw [Nat.mod_eq_of_lt (by omega)]; omega

/-- A shortened frame ends one dot early (log 11). -/
theorem Ppu.advance_shortened {p : Ppu} {shorten : Bool}
    (hs : shorten = true ∧ p.frameOdd = true ∧ p.scanline = 261 ∧ p.dot = 339) (clearDot : Nat) :
    (p.advance clearDot shorten).scanline = 0 ∧ (p.advance clearDot shorten).dot = 0 := by
  obtain ⟨hshort, hodd, hline, hdot⟩ := hs
  simp [Ppu.advance, Ppu.lineEnds, hshort, hodd, hline, hdot]

/-! ### The vblank flag by its position (R289, log 13) -/

theorem vblankAt_of_set {line dot : Nat} (h : line = 241 ∧ dot = 1) (clearDot : Nat) (old : Bool) :
    vblankAt clearDot line dot old = true := if_pos h

theorem vblankAt_of_clear {clearDot line dot : Nat} (h : line ≤ 240 ∨ line = 261 ∧ clearDot ≤ dot) (old : Bool) :
    vblankAt clearDot line dot old = false := by
  rw [vblankAt, if_neg (by omega), if_pos h]

theorem vblankAt_of_keep {clearDot line dot : Nat}
    (h : line = 241 ∧ dot ≠ 1 ∨ 242 ≤ line ∧ line ≤ 260 ∨ line = 261 ∧ dot < clearDot) (old : Bool) :
    vblankAt clearDot line dot old = old := by
  rw [vblankAt, if_neg (by omega), if_neg (by omega)]

/-- Settles O50: a PPU step is the PPU's advance with the step's input; the flag is `vblankAt` at the position reached. -/
theorem ppuStepAdvancesThePosition : Obligations.PpuStepAdvancesThePosition := by
  intro s h t short
  have hrange : t.ppu.InRange := Ppu.inRange_advance h _ _
  have hvblank : t.ppu.vblank = vblankAt s.params.vblankClearDot t.ppu.scanline t.ppu.dot s.ppu.vblank :=
    s.ppu.advance_vblank _ _
  rw [hvblank]
  exact ⟨fun hs => Ppu.advance_count h hs _, fun hs => Ppu.advance_shortened hs _, hrange.2, fun hp => vblankAt_of_set hp _ _,
    fun hp => vblankAt_of_clear hp _, fun hp => vblankAt_of_keep hp _, rfl, rfl⟩

end Sys2Proof.Machine
end

section
/-! Loading an image and the power-on state it gives (20_memory.md R76, R101; 70_reset_and_hazards.md R320, R321, R326). -/

namespace Sys2Proof.Machine

/-! ### The header in numbers (D25) -/

theorem bit2_eq (v : Byte) : v.getLsbD 2 = decide (v.toNat / 4 % 2 = 1) := by revert v; decide

theorem toNat_highNibble (v : Byte) : (v &&& 0xF0).toNat = v.toNat / 16 * 16 := by revert v; decide

theorem toNat_shiftRight_four (v : Byte) : (v >>> 4).toNat = v.toNat / 16 := by revert v; decide

/-- Byte 7 gives the mapper number's high digit and byte 6 its low digit, so the OR is a sum. -/
theorem mapperNumber_eq (img : List Byte) :
    mapperNumber img = (imageByte img 7).toNat / 16 * 16 + (imageByte img 6).toNat / 16 := by
  have low : (imageByte img 6).toNat / 16 < 2 ^ 4 := by have := (imageByte img 6).isLt; omega
  have sum := Nat.shiftLeft_add_eq_or_of_lt low ((imageByte img 7).toNat / 16)
  rw [Nat.shiftLeft_eq] at sum
  calc mapperNumber img = (imageByte img 7 &&& 0xF0).toNat ||| (imageByte img 6 >>> 4).toNat := BitVec.toNat_or _ _
    _ = _ := by rw [toNat_highNibble, toNat_shiftRight_four, sum]

theorem imageMirroring_eq (img : List Byte) :
    imageMirroring img = if (imageByte img 6).toNat % 2 = 1 then .vertical else .horizontal := by
  simp only [imageMirroring, bit0_eq, decide_eq_true_eq]

theorem prgStart_eq (img : List Byte) :
    prgStart img = 16 + if (imageByte img 6).toNat / 4 % 2 = 1 then 512 else 0 := by
  simp only [prgStart, bit2_eq, decide_eq_true_eq]

/-- The numbers without a mapper chip are those above 4 (R101). -/
theorem powerOnChip_eq_none_iff (mirroring : Mirroring) (n : Nat) : powerOnChip mirroring n = none ↔ 4 < n := by
  match n with
  | 0 | 1 | 2 | 3 | 4 => simp [powerOnChip]
  | n + 5 => simp [powerOnChip]

theorem exists_powerOnChip (mirroring : Mirroring) {n : Nat} (h : n ≤ 4) : ∃ chip, powerOnChip mirroring n = some chip :=
  Option.ne_none_iff_exists'.mp ((powerOnChip_eq_none_iff mirroring n).not.mpr (Nat.not_lt.mpr h))

/-! ### The checks of a load, in their order (R321, log 27) -/

section
variable {img : List Byte} {chrRam : Memory}

/-- How long the header says the image is. -/
def imageSize (img : List Byte) : Nat := prgStart img + imagePrgSize img + imageChrSize img

/-- An image too short for its header is shorter than the header declares, which counts the header itself. -/
theorem image_truncated_iff :
    (img.length < 16 ∨ img.length < prgStart img + imagePrgSize img + imageChrSize img) ↔ img.length < imageSize img := by
  rw [imageSize, prgStart]
  omega

theorem loadImage_of_badMagic (h : img.take 4 ≠ [0x4E, 0x45, 0x53, 0x1A]) :
    loadImage img chrRam = .error .malformedMagic := if_pos h

variable (magic : img.take 4 = [0x4E, 0x45, 0x53, 0x1A])
include magic

theorem loadImage_of_truncated (h : img.length < imageSize img) : loadImage img chrRam = .error .truncatedData := by
  rw [loadImage, if_neg (not_not.mpr magic), if_pos (image_truncated_iff.mpr h)]

variable (size : imageSize img ≤ img.length)
include size

theorem loadImage_of_unsupported (h : 4 < mapperNumber img) :
    loadImage img chrRam = .error (.unsupportedMapper (mapperNumber img)) := by
  rw [loadImage, if_neg (not_not.mpr magic), if_neg (image_truncated_iff.not.mpr (Nat.not_lt.mpr size)),
    (powerOnChip_eq_none_iff _ _).mpr h]

variable (number : mapperNumber img ≤ 4)
include number

theorem loadImage_of_noPrgBank (h : imageByte img 4 = 0) : loadImage img chrRam = .error .noPrgBank := by
  obtain ⟨chip, hchip⟩ := exists_powerOnChip (imageMirroring img) number
  rw [loadImage, if_neg (not_not.mpr magic), if_neg (image_truncated_iff.not.mpr (Nat.not_lt.mpr size)), hchip]
  exact if_pos h

theorem loadImage_succeeds (h : imageByte img 4 ≠ 0) : ∃ m, loadImage img chrRam = .ok m := by
  obtain ⟨chip, hchip⟩ := exists_powerOnChip (imageMirroring img) number
  rw [loadImage, if_neg (not_not.mpr magic), if_neg (image_truncated_iff.not.mpr (Nat.not_lt.mpr size)), hchip]
  exact ⟨_, if_neg h⟩

end

/-- Settles O59: the four checks in their order; a load that passes them is the image's cartridge, whose memories read as the
image's bytes. -/
theorem loadErrorsAreTheListed : Obligations.LoadErrorsAreTheListed := by
  intro img chrRam byte number start size magic
  have hnumber : mapperNumber img = number := mapperNumber_eq img
  have hstart : prgStart img = start := prgStart_eq img
  have hsize : imageSize img = size := by rw [imageSize, hstart]; rfl
  rw [← hnumber, ← hsize, ← hstart]
  refine ⟨loadImage_of_badMagic, loadImage_of_truncated, loadImage_of_unsupported,
    fun hm hs hn h4 => loadImage_of_noPrgBank hm hs hn ((eq_zero_iff _).mpr h4), fun hm hs hn h4 => ?_⟩
  obtain ⟨m, hload⟩ := loadImage_succeeds (chrRam := chrRam) hm hs hn ((eq_zero_iff _).not.mpr h4)
  obtain ⟨-, -, hchip, heq⟩ := loadImage_eq_ok hload
  have hmirroring : m.headerMirroring = imageMirroring img := by rw [heq]
  refine ⟨m, hload, by rw [heq]; rfl, by rw [heq]; rfl, hmirroring.trans (imageMirroring_eq img),
    by rw [hmirroring]; exact hchip, fun k hk => ?_, fun h5 k hk => ?_, fun h5 => ?_⟩
  · rw [heq]
    exact congrArg BitVec.toNat (read_loaded hk)
  · rw [heq]
    simp only [if_neg ((eq_zero_iff (imageByte img 5)).not.mpr h5)]
    exact congrArg BitVec.toNat (read_loaded hk)
  · rw [heq]
    exact if_pos ((eq_zero_iff _).mpr h5)

/-! ### The power-on state (R320) -/

/-- A power-on state with a canonical RAM and a valid cartridge has the invariant: its PPU is at the frame's first dot with the
vblank flag clear, and its slot is empty. -/
theorem powerOn_inv (params : Params) (regs : ResetRegs) {ram : Memory} {cart : Mapper} (hram : RamValid ram)
    (hcart : cart.Valid) : (State.powerOn params regs ram cart).Inv :=
  ⟨hram, hcart, ⟨Nat.zero_le _, Nat.zero_le _⟩, (fun h => Bool.noConfusion h), fun _ h => absurd h.symm (Option.some_ne_none _)⟩

/-- With the parameters in their ranges and the chip at power-on it is a power-on state, with its own PPU and no device input. -/
theorem powerOn_isPowerOn {params : Params} (regs : ResetRegs) {ram : Memory} {cart : Mapper} {n : Nat}
    (hparams : params.Valid) (hram : RamValid ram) (hcart : cart.Valid)
    (hchip : powerOnChip cart.headerMirroring n = some cart.chip) : (State.powerOn params regs ram cart).IsPowerOn :=
  ⟨params, regs, ram, cart, _, _, hparams, hram, hcart, ⟨Nat.zero_le _, Nat.zero_le _⟩, (fun h => Bool.noConfusion h), rfl,
    ⟨n, hchip⟩, rfl⟩

theorem blank_valid : Mapper.blank.Valid := ⟨Nat.le_refl _, rfl, rfl, rfl, rfl, rfl⟩

/-- A construction loads the image and powers on with its cartridge. -/
theorem construct_eq_ok {params : Params} {regs : ResetRegs} {ram chrRam : Memory} {img : List Byte} {s : State}
    (h : construct params regs ram chrRam img = .ok s) :
    ∃ cart, loadImage img chrRam = .ok cart ∧ s = State.powerOn params regs ram cart := by
  unfold construct at h
  split at h
  next cart hload => cases h; exact ⟨cart, hload, rfl⟩
  next => cases h

/-- A loaded cartridge has a chip at power-on, for the mirroring it keeps of its header. -/
theorem loadImage_chip {img : List Byte} {chrRam : Memory} {m : Mapper} (h : loadImage img chrRam = .ok m) :
    powerOnChip m.headerMirroring (mapperNumber img) = some m.chip := by
  obtain ⟨-, -, hchip, hm⟩ := loadImage_eq_ok h
  rw [hm]
  exact hchip

/-- Settles O54: the blank cartridge and every loaded one are valid, and the latter's chip is at power-on. -/
theorem powerOnHasTheInvariant : Obligations.PowerOnHasTheInvariant := by
  refine ⟨powerOn_inv _ _ ⟨rfl, rfl⟩ blank_valid, fun params regs ram chrRam img s hram hwf hbelow hs => ?_⟩
  obtain ⟨cart, hload, rfl⟩ := construct_eq_ok hs
  have hcart : cart.Valid := loadImage_valid hwf hbelow hload
  exact ⟨powerOn_inv params regs hram hcart, fun hparams => powerOn_isPowerOn regs hparams hram hcart (loadImage_chip hload)⟩

end Sys2Proof.Machine
end
